-- ==== Sys2Proof/Word.lean ====
section
/-!
DEFINITION. The two word types of the core: the 8-bit byte (registers, memory cells, operands) and the
16-bit address (PC and every memory address). Arithmetic on them wraps, as rules R6 and R12 ask.
-/

namespace Sys2Proof

/-- An 8-bit byte: A, X, Y, SP, P and every memory cell (R6). -/
abbrev Byte := BitVec 8

/-- A 16-bit address: PC and every address the core passes to memory (R6, R51). -/
abbrev Addr := BitVec 16

end Sys2Proof
end

