-- ==== Sys2Proof/Machine/Flags.lean ====
section
/-!
DEFINITION. The status register's flags (R13, R28, R36) and every flag and result computation: add and subtract,
binary and decimal (R170, R184, R185), compare (R174), BIT (R163), shifts and rotates (R190 to R193).
-/

namespace Sys2Proof.Machine

/-- The six named flags of P (R28). -/
inductive Flag where
  | c | z | i | d | v | n
  deriving DecidableEq, Repr

/-- The bit of P that holds a flag (R28). -/
def Flag.bit : Flag → Nat
  | .c => 0
  | .z => 1
  | .i => 2
  | .d => 3
  | .v => 6
  | .n => 7

/-- The byte with only a flag's bit set. -/
def Flag.mask (f : Flag) : Byte := 1#8 <<< f.bit

/-- `getFlag` (R36): whether the bit is set. -/
def getFlag (p : Byte) (f : Flag) : Bool := p.getLsbD f.bit

/-- `setFlag` (R13, R36): set or clear exactly the given bit, leaving all others untouched. -/
def setFlag (p : Byte) (f : Flag) (c : Bool) : Byte :=
  if c then p ||| f.mask else p &&& ~~~f.mask

/-- `setNZ(v)` (R15). -/
def setNZ (p v : Byte) : Byte := setFlag (setFlag p .n (v.getLsbD 7)) .z (v == 0)

/-! ### Add and subtract -/

/-- A result byte with the four flags ADC and SBC write. -/
structure AluOut where
  r : Byte
  n : Bool
  z : Bool
  c : Bool
  v : Bool
  deriving DecidableEq, Repr

/-- `AddBinary(a, b, cin)` (R170), with N and Z of the result. -/
def addBinary (a b : Byte) (cin : Bool) : AluOut :=
  let s := a.toNat + b.toNat + cin.toNat
  let r := BitVec.ofNat 8 s
  { r := r
    n := r.getLsbD 7
    z := r == 0
    c := decide (0xFF < s)
    v := ((a ^^^ r) &&& (b ^^^ r) &&& 0x80) != 0 }

/-- The binary SBC of R172: add the complement of the operand. -/
def subBinary (a v : Byte) (cin : Bool) : AluOut := addBinary a (v ^^^ 0xFF) cin

/-- `DecimalAdc(V)` (R184). -/
def addDecimal (a v : Byte) (cin : Bool) : AluOut :=
  let low := (a &&& 0x0F).toNat + (v &&& 0x0F).toNat + cin.toNat
  let al := if 0x0A ≤ low then (low + 0x06) % 0x10 + 0x10 else low
  let sum := (a &&& 0xF0).toNat + (v &&& 0xF0).toNat + al
  let t : Int := (a &&& 0xF0).toInt + (v &&& 0xF0).toInt + (al : Int)
  let s := if 0xA0 ≤ sum then sum + 0x60 else sum
  { r := BitVec.ofNat 8 s
    n := (BitVec.ofInt 8 t).getLsbD 7
    z := BitVec.ofNat 8 (a.toNat + v.toNat + cin.toNat) == 0
    c := decide (0x100 ≤ s)
    v := decide (t < -128 ∨ 127 < t) }

/-- `DecimalSbc(V)` (R185): the flags of the binary SBC, with A decimal. -/
def subDecimal (a v : Byte) (cin : Bool) : AluOut :=
  let low : Int := (a &&& 0x0F).toNat - (v &&& 0x0F).toNat + cin.toNat - 1
  let al : Int := if low < 0 then (low - 0x06) % 0x10 - 0x10 else low
  let diff : Int := (a &&& 0xF0).toNat - (v &&& 0xF0).toNat + al
  let s : Int := if diff < 0 then diff - 0x60 else diff
  { subBinary a v cin with r := BitVec.ofInt 8 s }

/-- P after ADC or SBC (R171, R172): C, V, N and Z written, I and D kept. -/
def aluFlags (p : Byte) (o : AluOut) : Byte :=
  setFlag (setFlag (setFlag (setFlag p .c o.c) .v o.v) .n o.n) .z o.z

/-! ### Compare and BIT -/

/-- P after `Compare(r, v)` (R174). -/
def compareFlags (p r v : Byte) : Byte :=
  setFlag (setFlag (setFlag p .c (decide (v.toNat ≤ r.toNat))) .z (r == v)) .n ((r - v).getLsbD 7)

/-- P after BIT with accumulator `a` and operand `v` (R163). -/
def bitFlags (p a v : Byte) : Byte :=
  setFlag (setFlag (setFlag p .z ((a &&& v) == 0)) .n (v.getLsbD 7)) .v (v.getLsbD 6)

/-! ### Shifts and rotates -/

/-- A shifted byte and the bit shifted out. -/
structure Shifted where
  r : Byte
  out : Bool
  deriving DecidableEq, Repr

/-- ASL (R190); the carry in is not used. -/
def aslByte (v : Byte) (_cin : Bool) : Shifted := ⟨v <<< 1, v.getLsbD 7⟩

/-- LSR (R191); the carry in is not used. -/
def lsrByte (v : Byte) (_cin : Bool) : Shifted := ⟨v >>> 1, v.getLsbD 0⟩

/-- ROL (R192): the old carry enters bit 0. -/
def rolByte (v : Byte) (cin : Bool) : Shifted :=
  ⟨(v <<< 1) ||| (if cin then 0x01 else 0x00), v.getLsbD 7⟩

/-- ROR (R193): the old carry enters bit 7. -/
def rorByte (v : Byte) (cin : Bool) : Shifted :=
  ⟨(v >>> 1) ||| (if cin then 0x80 else 0x00), v.getLsbD 0⟩

/-- P after a shift or rotate (R190 to R193): C the bit shifted out, N and Z of the result. -/
def shiftFlags (p : Byte) (o : Shifted) : Byte := setNZ (setFlag p .c o.out) o.r

end Sys2Proof.Machine
end

