-- ==== Sys2Proof/Config.lean ====
section
/-!
DEFINITION. The named parameters of rule R9. The spec leaves each to the model ("a model may take the
parameter as an argument instead"), so the machine carries one `Params` in its state and every claim ranges
over all its values. No value of this core is left undefined by the spec, so there is no free value here.
-/

namespace Sys2Proof.Config

/-- `DECIMAL_MODE` (R9, R173): what ADC and SBC do when P.D = 1. -/
inductive DecimalMode where
  /-- The tick ends with `Refused(DecimalMode)`. -/
  | refuse
  /-- P.D is ignored: the binary rules R171 and R172 apply. -/
  | binary
  /-- The NMOS decimal arithmetic of R184 and R185. -/
  | nmosBcd
  deriving DecidableEq, Repr

/-- `PAGE_CROSS_POLICY` (R9, R107): which indexed instructions pay the page-cross cycle. -/
inductive PageCrossPolicy where
  /-- Only the read class pays it. -/
  | readsOnly
  /-- Every instruction in an indexed mode pays it. -/
  | allIndexed
  deriving DecidableEq, Repr

/-- The parameters of R9. The fifth, `MEM`, is the default memory of R52 and is held in the state itself. -/
structure Params where
  /-- `DECIMAL_MODE` -/
  decimalMode : DecimalMode
  /-- `TSX_SETS_NZ` (R228) -/
  tsxSetsNz : Bool
  /-- `PAGE_CROSS_POLICY` (R107) -/
  pageCrossPolicy : PageCrossPolicy
  /-- `JMP_IND_PAGE_WRAP` (R131) -/
  jmpIndPageWrap : Bool
  deriving DecidableEq, Repr

/-- The defaults of R9, each the spec's own choice (92_eei_decisions.md D3 to D6). -/
def Params.specDefault : Params where
  decimalMode := .refuse
  tsxSetsNz := true
  pageCrossPolicy := .readsOnly
  jmpIndPageWrap := true

/-- The parameters `State.reset` carries: the defaults of R9, but `DECIMAL_MODE = NmosBcd`, the value of R9
under which every instruction has an effect in every state (DESIGN CHOICE, log entry 2, unsafe: a claim about
ADC or SBC with P.D = 1 names the setting it holds for). -/
def Params.launch : Params := { Params.specDefault with decimalMode := .nmosBcd }

end Sys2Proof.Config
end

