-- ==== Sys2Proof/Syntax.lean ====
section
/-!
DEFINITION. The instructions: one constructor for each of the 151 rows of spec/opcode_table.json (R85), named
by mnemonic and addressing mode, so that a mode a mnemonic lacks cannot be written (R135). The operand is what
R82 assembles: an immediate `v`, a zero-page byte `z`, a displacement byte `d`, or a 16-bit address `a`.
-/

namespace Sys2Proof

/-- An instruction of the official set, with its operand (R81, R82, R85). -/
inductive Instr where
  -- Loads and stores (42_load_store.md)
  | ldaImm (v : Byte)
  | ldaZp (z : Byte)
  | ldaZpx (z : Byte)
  | ldaAbs (a : Addr)
  | ldaAbsx (a : Addr)
  | ldaAbsy (a : Addr)
  | ldaIndx (z : Byte)
  | ldaIndy (z : Byte)
  | ldxImm (v : Byte)
  | ldxZp (z : Byte)
  | ldxZpy (z : Byte)
  | ldxAbs (a : Addr)
  | ldxAbsy (a : Addr)
  | ldyImm (v : Byte)
  | ldyZp (z : Byte)
  | ldyZpx (z : Byte)
  | ldyAbs (a : Addr)
  | ldyAbsx (a : Addr)
  | staZp (z : Byte)
  | staZpx (z : Byte)
  | staAbs (a : Addr)
  | staAbsx (a : Addr)
  | staAbsy (a : Addr)
  | staIndx (z : Byte)
  | staIndy (z : Byte)
  | stxZp (z : Byte)
  | stxZpy (z : Byte)
  | stxAbs (a : Addr)
  | styZp (z : Byte)
  | styZpx (z : Byte)
  | styAbs (a : Addr)
  -- Logical operations (43_logical.md)
  | andImm (v : Byte)
  | andZp (z : Byte)
  | andZpx (z : Byte)
  | andAbs (a : Addr)
  | andAbsx (a : Addr)
  | andAbsy (a : Addr)
  | andIndx (z : Byte)
  | andIndy (z : Byte)
  | oraImm (v : Byte)
  | oraZp (z : Byte)
  | oraZpx (z : Byte)
  | oraAbs (a : Addr)
  | oraAbsx (a : Addr)
  | oraAbsy (a : Addr)
  | oraIndx (z : Byte)
  | oraIndy (z : Byte)
  | eorImm (v : Byte)
  | eorZp (z : Byte)
  | eorZpx (z : Byte)
  | eorAbs (a : Addr)
  | eorAbsx (a : Addr)
  | eorAbsy (a : Addr)
  | eorIndx (z : Byte)
  | eorIndy (z : Byte)
  | bitZp (z : Byte)
  | bitAbs (a : Addr)
  -- Arithmetic, compare, increment and decrement (44_arith_compare.md)
  | adcImm (v : Byte)
  | adcZp (z : Byte)
  | adcZpx (z : Byte)
  | adcAbs (a : Addr)
  | adcAbsx (a : Addr)
  | adcAbsy (a : Addr)
  | adcIndx (z : Byte)
  | adcIndy (z : Byte)
  | sbcImm (v : Byte)
  | sbcZp (z : Byte)
  | sbcZpx (z : Byte)
  | sbcAbs (a : Addr)
  | sbcAbsx (a : Addr)
  | sbcAbsy (a : Addr)
  | sbcIndx (z : Byte)
  | sbcIndy (z : Byte)
  | cmpImm (v : Byte)
  | cmpZp (z : Byte)
  | cmpZpx (z : Byte)
  | cmpAbs (a : Addr)
  | cmpAbsx (a : Addr)
  | cmpAbsy (a : Addr)
  | cmpIndx (z : Byte)
  | cmpIndy (z : Byte)
  | cpxImm (v : Byte)
  | cpxZp (z : Byte)
  | cpxAbs (a : Addr)
  | cpyImm (v : Byte)
  | cpyZp (z : Byte)
  | cpyAbs (a : Addr)
  | incZp (z : Byte)
  | incZpx (z : Byte)
  | incAbs (a : Addr)
  | incAbsx (a : Addr)
  | decZp (z : Byte)
  | decZpx (z : Byte)
  | decAbs (a : Addr)
  | decAbsx (a : Addr)
  | inx
  | iny
  | dex
  | dey
  -- Shifts and rotates (45_shift_rotate.md)
  | aslAcc
  | aslZp (z : Byte)
  | aslZpx (z : Byte)
  | aslAbs (a : Addr)
  | aslAbsx (a : Addr)
  | lsrAcc
  | lsrZp (z : Byte)
  | lsrZpx (z : Byte)
  | lsrAbs (a : Addr)
  | lsrAbsx (a : Addr)
  | rolAcc
  | rolZp (z : Byte)
  | rolZpx (z : Byte)
  | rolAbs (a : Addr)
  | rolAbsx (a : Addr)
  | rorAcc
  | rorZp (z : Byte)
  | rorZpx (z : Byte)
  | rorAbs (a : Addr)
  | rorAbsx (a : Addr)
  -- Conditional branches (46_branch.md)
  | bcc (d : Byte)
  | bcs (d : Byte)
  | beq (d : Byte)
  | bne (d : Byte)
  | bmi (d : Byte)
  | bpl (d : Byte)
  | bvc (d : Byte)
  | bvs (d : Byte)
  -- Stack operations and register transfers (47_stack_transfer.md)
  | pha
  | php
  | pla
  | plp
  | tax
  | tay
  | txa
  | tya
  | tsx
  | txs
  -- Jumps, subroutines, BRK/RTI, flag operations, NOP (48_control.md)
  | jmpAbs (a : Addr)
  | jmpInd (a : Addr)
  | jsr (a : Addr)
  | rts
  | brk
  | rti
  | clc
  | sec
  | cli
  | sei
  | cld
  | sed
  | clv
  | nop
  deriving DecidableEq, Repr

end Sys2Proof
end

