-- ==== Sys2Proof/WellFormed.lean ====
section
/-!
DEFINITION. The checks: on an opcode table (its rows' form, R81 and R83, and the no-duplicate check of R103 and
R271) and on an instruction term.
-/

namespace Sys2Proof

/-- The 13 addressing modes of R81. -/
inductive Mode where
  | imp | acc | imm | zp | zpx | zpy | abs | absx | absy | ind | indx | indy | rel
  deriving DecidableEq, Repr

/-- How many operand bytes a mode takes (R81). -/
def Mode.operandBytes : Mode → Nat
  | .imp | .acc => 0
  | .imm | .zp | .zpx | .zpy | .indx | .indy | .rel => 1
  | .abs | .absx | .absy | .ind => 2

/-- The length of an instruction, opcode byte included (R83). -/
def Mode.length (m : Mode) : Nat := m.operandBytes + 1

/-- How an instruction is made from its operand: none, one byte, or a 16-bit word (R82). -/
inductive Build where
  | plain (i : Instr)
  | byte (f : Byte → Instr)
  | word (f : Addr → Instr)

/-- How many operand bytes a build consumes. -/
def Build.operandBytes : Build → Nat
  | .plain _ => 0
  | .byte _ => 1
  | .word _ => 2

/-- The `page-cross` column of R85: never, the read class under both policies, only under `AllIndexed`, or the
branch rule R201. -/
inductive CrossRule where
  | never | reads | allIndexedOnly | branch
  deriving DecidableEq, Repr

/-- One row of the opcode list R85: opcode byte, mnemonic, mode, base cycles, page-cross column, and the
instruction the row stands for. -/
structure Row where
  op : Byte
  mnemonic : String
  mode : Mode
  baseCycles : Nat
  cross : CrossRule
  build : Build

/-- A row is well-formed when its instruction takes as many operand bytes as its mode has (R81, R83). -/
def Row.wf (r : Row) : Bool := r.build.operandBytes == r.mode.operandBytes

/-- No byte is registered twice (R103: "a decidable check that opcode_table.json has no repeated `match`"). -/
def noRepeats : List Byte → Bool
  | [] => true
  | c :: rest => !rest.contains c && noRepeats rest

/-- An opcode table a core may be built from: every row well-formed, no byte registered twice (R103, R271). -/
def tableWf (t : List Row) : Bool := t.all Row.wf && noRepeats (t.map Row.op)

/-- Well-formedness of an instruction term. There is nothing to check: a constructor exists only for a row of
R85, so a mode a mnemonic lacks cannot be expressed (R135), and every operand type is exactly as wide as its field
(R81, R82), so every value of it can be encoded. -/
def Instr.wf (_ : Instr) : Bool := true

end Sys2Proof
end

