-- ==== Sys2Proof/Decode.lean ====
section
/-!
DEFINITION. The opcode table (R84, R85; UNVERIFIED, log entry 7, unsafe), the decoder over it (R80 to R83, R86), the encoder, and the registration
of handlers at initialization (R103, R271).
-/

namespace Sys2Proof

/-! ### Byte order (R57, R82) -/

/-- `hi:lo`, the 16-bit value `hi * 256 + lo` (R11). -/
def joinBytes (hi lo : Byte) : Addr := BitVec.ofNat 16 (hi.toNat * 256 + lo.toNat)

/-- `v[7:0]` -/
def lowByte (v : Addr) : Byte := BitVec.ofNat 8 v.toNat

/-- `v[15:8]` -/
def highByte (v : Addr) : Byte := BitVec.ofNat 8 (v.toNat / 256)

/-! ### The opcode table -/

/-- Loads and stores (42_load_store.md), part 1: rows of R85. -/
def loadStoreRows1 : List Row :=
  [ ⟨0xA9, "LDA", .imm, 2, .never, .byte .ldaImm⟩,
    ⟨0xA5, "LDA", .zp, 3, .never, .byte .ldaZp⟩,
    ⟨0xB5, "LDA", .zpx, 4, .never, .byte .ldaZpx⟩,
    ⟨0xAD, "LDA", .abs, 4, .never, .word .ldaAbs⟩,
    ⟨0xBD, "LDA", .absx, 4, .reads, .word .ldaAbsx⟩,
    ⟨0xB9, "LDA", .absy, 4, .reads, .word .ldaAbsy⟩,
    ⟨0xA1, "LDA", .indx, 6, .never, .byte .ldaIndx⟩,
    ⟨0xB1, "LDA", .indy, 5, .reads, .byte .ldaIndy⟩,
    ⟨0xA2, "LDX", .imm, 2, .never, .byte .ldxImm⟩,
    ⟨0xA6, "LDX", .zp, 3, .never, .byte .ldxZp⟩,
    ⟨0xB6, "LDX", .zpy, 4, .never, .byte .ldxZpy⟩,
    ⟨0xAE, "LDX", .abs, 4, .never, .word .ldxAbs⟩,
    ⟨0xBE, "LDX", .absy, 4, .reads, .word .ldxAbsy⟩,
    ⟨0xA0, "LDY", .imm, 2, .never, .byte .ldyImm⟩ ]

/-- Loads and stores (42_load_store.md), part 2: rows of R85. -/
def loadStoreRows2 : List Row :=
  [ ⟨0xA4, "LDY", .zp, 3, .never, .byte .ldyZp⟩,
    ⟨0xB4, "LDY", .zpx, 4, .never, .byte .ldyZpx⟩,
    ⟨0xAC, "LDY", .abs, 4, .never, .word .ldyAbs⟩,
    ⟨0xBC, "LDY", .absx, 4, .reads, .word .ldyAbsx⟩,
    ⟨0x85, "STA", .zp, 3, .never, .byte .staZp⟩,
    ⟨0x95, "STA", .zpx, 4, .never, .byte .staZpx⟩,
    ⟨0x8D, "STA", .abs, 4, .never, .word .staAbs⟩,
    ⟨0x9D, "STA", .absx, 5, .allIndexedOnly, .word .staAbsx⟩,
    ⟨0x99, "STA", .absy, 5, .allIndexedOnly, .word .staAbsy⟩,
    ⟨0x81, "STA", .indx, 6, .never, .byte .staIndx⟩,
    ⟨0x91, "STA", .indy, 6, .allIndexedOnly, .byte .staIndy⟩,
    ⟨0x86, "STX", .zp, 3, .never, .byte .stxZp⟩,
    ⟨0x96, "STX", .zpy, 4, .never, .byte .stxZpy⟩,
    ⟨0x8E, "STX", .abs, 4, .never, .word .stxAbs⟩ ]

/-- Loads and stores (42_load_store.md), part 3: rows of R85. -/
def loadStoreRows3 : List Row :=
  [ ⟨0x84, "STY", .zp, 3, .never, .byte .styZp⟩,
    ⟨0x94, "STY", .zpx, 4, .never, .byte .styZpx⟩,
    ⟨0x8C, "STY", .abs, 4, .never, .word .styAbs⟩ ]

/-- Logical operations (43_logical.md), part 1: rows of R85. -/
def logicalRows1 : List Row :=
  [ ⟨0x29, "AND", .imm, 2, .never, .byte .andImm⟩,
    ⟨0x25, "AND", .zp, 3, .never, .byte .andZp⟩,
    ⟨0x35, "AND", .zpx, 4, .never, .byte .andZpx⟩,
    ⟨0x2D, "AND", .abs, 4, .never, .word .andAbs⟩,
    ⟨0x3D, "AND", .absx, 4, .reads, .word .andAbsx⟩,
    ⟨0x39, "AND", .absy, 4, .reads, .word .andAbsy⟩,
    ⟨0x21, "AND", .indx, 6, .never, .byte .andIndx⟩,
    ⟨0x31, "AND", .indy, 5, .reads, .byte .andIndy⟩,
    ⟨0x09, "ORA", .imm, 2, .never, .byte .oraImm⟩,
    ⟨0x05, "ORA", .zp, 3, .never, .byte .oraZp⟩,
    ⟨0x15, "ORA", .zpx, 4, .never, .byte .oraZpx⟩,
    ⟨0x0D, "ORA", .abs, 4, .never, .word .oraAbs⟩,
    ⟨0x1D, "ORA", .absx, 4, .reads, .word .oraAbsx⟩,
    ⟨0x19, "ORA", .absy, 4, .reads, .word .oraAbsy⟩ ]

/-- Logical operations (43_logical.md), part 2: rows of R85. -/
def logicalRows2 : List Row :=
  [ ⟨0x01, "ORA", .indx, 6, .never, .byte .oraIndx⟩,
    ⟨0x11, "ORA", .indy, 5, .reads, .byte .oraIndy⟩,
    ⟨0x49, "EOR", .imm, 2, .never, .byte .eorImm⟩,
    ⟨0x45, "EOR", .zp, 3, .never, .byte .eorZp⟩,
    ⟨0x55, "EOR", .zpx, 4, .never, .byte .eorZpx⟩,
    ⟨0x4D, "EOR", .abs, 4, .never, .word .eorAbs⟩,
    ⟨0x5D, "EOR", .absx, 4, .reads, .word .eorAbsx⟩,
    ⟨0x59, "EOR", .absy, 4, .reads, .word .eorAbsy⟩,
    ⟨0x41, "EOR", .indx, 6, .never, .byte .eorIndx⟩,
    ⟨0x51, "EOR", .indy, 5, .reads, .byte .eorIndy⟩,
    ⟨0x24, "BIT", .zp, 3, .never, .byte .bitZp⟩,
    ⟨0x2C, "BIT", .abs, 4, .never, .word .bitAbs⟩ ]

/-- Arithmetic, compare, increment and decrement (44_arith_compare.md), part 1: rows of R85. -/
def arithRows1 : List Row :=
  [ ⟨0x69, "ADC", .imm, 2, .never, .byte .adcImm⟩,
    ⟨0x65, "ADC", .zp, 3, .never, .byte .adcZp⟩,
    ⟨0x75, "ADC", .zpx, 4, .never, .byte .adcZpx⟩,
    ⟨0x6D, "ADC", .abs, 4, .never, .word .adcAbs⟩,
    ⟨0x7D, "ADC", .absx, 4, .reads, .word .adcAbsx⟩,
    ⟨0x79, "ADC", .absy, 4, .reads, .word .adcAbsy⟩,
    ⟨0x61, "ADC", .indx, 6, .never, .byte .adcIndx⟩,
    ⟨0x71, "ADC", .indy, 5, .reads, .byte .adcIndy⟩,
    ⟨0xE9, "SBC", .imm, 2, .never, .byte .sbcImm⟩,
    ⟨0xE5, "SBC", .zp, 3, .never, .byte .sbcZp⟩,
    ⟨0xF5, "SBC", .zpx, 4, .never, .byte .sbcZpx⟩,
    ⟨0xED, "SBC", .abs, 4, .never, .word .sbcAbs⟩,
    ⟨0xFD, "SBC", .absx, 4, .reads, .word .sbcAbsx⟩,
    ⟨0xF9, "SBC", .absy, 4, .reads, .word .sbcAbsy⟩ ]

/-- Arithmetic, compare, increment and decrement (44_arith_compare.md), part 2: rows of R85. -/
def arithRows2 : List Row :=
  [ ⟨0xE1, "SBC", .indx, 6, .never, .byte .sbcIndx⟩,
    ⟨0xF1, "SBC", .indy, 5, .reads, .byte .sbcIndy⟩,
    ⟨0xC9, "CMP", .imm, 2, .never, .byte .cmpImm⟩,
    ⟨0xC5, "CMP", .zp, 3, .never, .byte .cmpZp⟩,
    ⟨0xD5, "CMP", .zpx, 4, .never, .byte .cmpZpx⟩,
    ⟨0xCD, "CMP", .abs, 4, .never, .word .cmpAbs⟩,
    ⟨0xDD, "CMP", .absx, 4, .reads, .word .cmpAbsx⟩,
    ⟨0xD9, "CMP", .absy, 4, .reads, .word .cmpAbsy⟩,
    ⟨0xC1, "CMP", .indx, 6, .never, .byte .cmpIndx⟩,
    ⟨0xD1, "CMP", .indy, 5, .reads, .byte .cmpIndy⟩,
    ⟨0xE0, "CPX", .imm, 2, .never, .byte .cpxImm⟩,
    ⟨0xE4, "CPX", .zp, 3, .never, .byte .cpxZp⟩,
    ⟨0xEC, "CPX", .abs, 4, .never, .word .cpxAbs⟩,
    ⟨0xC0, "CPY", .imm, 2, .never, .byte .cpyImm⟩ ]

/-- Arithmetic, compare, increment and decrement (44_arith_compare.md), part 3: rows of R85. -/
def arithRows3 : List Row :=
  [ ⟨0xC4, "CPY", .zp, 3, .never, .byte .cpyZp⟩,
    ⟨0xCC, "CPY", .abs, 4, .never, .word .cpyAbs⟩,
    ⟨0xE6, "INC", .zp, 5, .never, .byte .incZp⟩,
    ⟨0xF6, "INC", .zpx, 6, .never, .byte .incZpx⟩,
    ⟨0xEE, "INC", .abs, 6, .never, .word .incAbs⟩,
    ⟨0xFE, "INC", .absx, 7, .allIndexedOnly, .word .incAbsx⟩,
    ⟨0xC6, "DEC", .zp, 5, .never, .byte .decZp⟩,
    ⟨0xD6, "DEC", .zpx, 6, .never, .byte .decZpx⟩,
    ⟨0xCE, "DEC", .abs, 6, .never, .word .decAbs⟩,
    ⟨0xDE, "DEC", .absx, 7, .allIndexedOnly, .word .decAbsx⟩,
    ⟨0xE8, "INX", .imp, 2, .never, .plain .inx⟩,
    ⟨0xC8, "INY", .imp, 2, .never, .plain .iny⟩,
    ⟨0xCA, "DEX", .imp, 2, .never, .plain .dex⟩,
    ⟨0x88, "DEY", .imp, 2, .never, .plain .dey⟩ ]

/-- Shifts and rotates (45_shift_rotate.md), part 1: rows of R85. -/
def shiftRows1 : List Row :=
  [ ⟨0x0A, "ASL", .acc, 2, .never, .plain .aslAcc⟩,
    ⟨0x06, "ASL", .zp, 5, .never, .byte .aslZp⟩,
    ⟨0x16, "ASL", .zpx, 6, .never, .byte .aslZpx⟩,
    ⟨0x0E, "ASL", .abs, 6, .never, .word .aslAbs⟩,
    ⟨0x1E, "ASL", .absx, 7, .allIndexedOnly, .word .aslAbsx⟩,
    ⟨0x4A, "LSR", .acc, 2, .never, .plain .lsrAcc⟩,
    ⟨0x46, "LSR", .zp, 5, .never, .byte .lsrZp⟩,
    ⟨0x56, "LSR", .zpx, 6, .never, .byte .lsrZpx⟩,
    ⟨0x4E, "LSR", .abs, 6, .never, .word .lsrAbs⟩,
    ⟨0x5E, "LSR", .absx, 7, .allIndexedOnly, .word .lsrAbsx⟩,
    ⟨0x2A, "ROL", .acc, 2, .never, .plain .rolAcc⟩,
    ⟨0x26, "ROL", .zp, 5, .never, .byte .rolZp⟩,
    ⟨0x36, "ROL", .zpx, 6, .never, .byte .rolZpx⟩,
    ⟨0x2E, "ROL", .abs, 6, .never, .word .rolAbs⟩ ]

/-- Shifts and rotates (45_shift_rotate.md), part 2: rows of R85. -/
def shiftRows2 : List Row :=
  [ ⟨0x3E, "ROL", .absx, 7, .allIndexedOnly, .word .rolAbsx⟩,
    ⟨0x6A, "ROR", .acc, 2, .never, .plain .rorAcc⟩,
    ⟨0x66, "ROR", .zp, 5, .never, .byte .rorZp⟩,
    ⟨0x76, "ROR", .zpx, 6, .never, .byte .rorZpx⟩,
    ⟨0x6E, "ROR", .abs, 6, .never, .word .rorAbs⟩,
    ⟨0x7E, "ROR", .absx, 7, .allIndexedOnly, .word .rorAbsx⟩ ]

/-- Conditional branches (46_branch.md): rows of R85. -/
def branchRows : List Row :=
  [ ⟨0x90, "BCC", .rel, 2, .branch, .byte .bcc⟩,
    ⟨0xB0, "BCS", .rel, 2, .branch, .byte .bcs⟩,
    ⟨0xF0, "BEQ", .rel, 2, .branch, .byte .beq⟩,
    ⟨0xD0, "BNE", .rel, 2, .branch, .byte .bne⟩,
    ⟨0x30, "BMI", .rel, 2, .branch, .byte .bmi⟩,
    ⟨0x10, "BPL", .rel, 2, .branch, .byte .bpl⟩,
    ⟨0x50, "BVC", .rel, 2, .branch, .byte .bvc⟩,
    ⟨0x70, "BVS", .rel, 2, .branch, .byte .bvs⟩ ]

/-- Stack operations and register transfers (47_stack_transfer.md): rows of R85. -/
def stackTransferRows : List Row :=
  [ ⟨0x48, "PHA", .imp, 3, .never, .plain .pha⟩,
    ⟨0x08, "PHP", .imp, 3, .never, .plain .php⟩,
    ⟨0x68, "PLA", .imp, 4, .never, .plain .pla⟩,
    ⟨0x28, "PLP", .imp, 4, .never, .plain .plp⟩,
    ⟨0xAA, "TAX", .imp, 2, .never, .plain .tax⟩,
    ⟨0xA8, "TAY", .imp, 2, .never, .plain .tay⟩,
    ⟨0x8A, "TXA", .imp, 2, .never, .plain .txa⟩,
    ⟨0x98, "TYA", .imp, 2, .never, .plain .tya⟩,
    ⟨0xBA, "TSX", .imp, 2, .never, .plain .tsx⟩,
    ⟨0x9A, "TXS", .imp, 2, .never, .plain .txs⟩ ]

/-- Jumps, subroutines, BRK/RTI, flag operations, NOP (48_control.md): rows of R85. -/
def controlRows : List Row :=
  [ ⟨0x4C, "JMP", .abs, 3, .never, .word .jmpAbs⟩,
    ⟨0x6C, "JMP", .ind, 5, .never, .word .jmpInd⟩,
    ⟨0x20, "JSR", .abs, 6, .never, .word .jsr⟩,
    ⟨0x60, "RTS", .imp, 6, .never, .plain .rts⟩,
    ⟨0x00, "BRK", .imp, 7, .never, .plain .brk⟩,
    ⟨0x40, "RTI", .imp, 6, .never, .plain .rti⟩,
    ⟨0x18, "CLC", .imp, 2, .never, .plain .clc⟩,
    ⟨0x38, "SEC", .imp, 2, .never, .plain .sec⟩,
    ⟨0x58, "CLI", .imp, 2, .never, .plain .cli⟩,
    ⟨0x78, "SEI", .imp, 2, .never, .plain .sei⟩,
    ⟨0xD8, "CLD", .imp, 2, .never, .plain .cld⟩,
    ⟨0xF8, "SED", .imp, 2, .never, .plain .sed⟩,
    ⟨0xB8, "CLV", .imp, 2, .never, .plain .clv⟩,
    ⟨0xEA, "NOP", .imp, 2, .never, .plain .nop⟩ ]

/-- The opcode list of R85 in parts, family by family. -/
def opcodeParts : List (List Row) :=
  [ loadStoreRows1,
    loadStoreRows2,
    loadStoreRows3,
    logicalRows1,
    logicalRows2,
    arithRows1,
    arithRows2,
    arithRows3,
    shiftRows1,
    shiftRows2,
    branchRows,
    stackTransferRows,
    controlRows ]

/-- The complete opcode list of R85: 151 rows. -/
def opcodeTable : List Row := opcodeParts.flatten
/-- The row registered for an opcode byte; the byte alone selects it (R80, R104). -/
def findRow (t : List Row) (op : Byte) : Option Row :=
  match t with
  | [] => none
  | r :: rest => if r.op == op then some r else findRow rest op

/-- The row registered for an opcode byte in a table given in parts. -/
def findInParts (parts : List (List Row)) (op : Byte) : Option Row :=
  match parts with
  | [] => none
  | t :: rest =>
    match findRow t op with
    | some r => some r
    | none => findInParts rest op

/-- The handler lookup of R101 step 4: the row of R85 for an opcode byte, none for the 105 bytes of R86. -/
def lookupRow (op : Byte) : Option Row := findInParts opcodeParts op

/-! ### Decoding -/

/-- Why bytes are not an instruction. -/
inductive DecodeError where
  /-- The first byte has no registered handler (R86). -/
  | illegalOpcode (op : Byte)
  /-- The bytes end before the operand does. -/
  | truncated (op : Byte)
  /-- There is no byte at all. -/
  | empty
  deriving DecidableEq, Repr

/-- The operand bytes turned into the instruction's operand (R82). -/
def decodeOperand (op : Byte) (b : Build) (rest : List Byte) : Except DecodeError (Instr × List Byte) :=
  match b, rest with
  | .plain i, _ => .ok (i, rest)
  | .byte f, v :: rest' => .ok (f v, rest')
  | .byte _, [] => .error (.truncated op)
  | .word f, lo :: hi :: rest' => .ok (f (joinBytes hi lo), rest')
  | .word _, _ => .error (.truncated op)

/-- The instruction at the front of `bytes`, and the bytes after it (R80 to R83). -/
def decode (bytes : List Byte) : Except DecodeError (Instr × List Byte) :=
  match bytes with
  | [] => .error .empty
  | op :: rest =>
    match lookupRow op with
    | none => .error (.illegalOpcode op)
    | some row => decodeOperand op row.build rest

/-- Three bytes of a word, least significant first, bits at `nbits` and above read as 0. -/
def tableBytes (nbits w : Nat) : List Byte :=
  let v := w % 2 ^ nbits
  [BitVec.ofNat 8 v, BitVec.ofNat 8 (v / 256), BitVec.ofNat 8 (v / 65536)]

/-- The instruction the decoder reads from the bits `w` of a table row, numbered as spec/opcode_table.json
numbers them: the first byte is bits 7 to 0. -/
def decodeTableWord (nbits w : Nat) : Option Instr :=
  match decode (tableBytes nbits w) with
  | .ok (i, _) => some i
  | .error _ => none

/-! ### Encoding -/

/-- The bytes of an instruction, the first at the lowest address: the opcode byte of R85, then the operand in
the format of R81 (a 16-bit operand low byte first). Written from R85 apart from `opcodeTable`. -/
def encode : Instr → List Byte
  | .ldaImm v => [0xA9, v]
  | .ldaZp z => [0xA5, z]
  | .ldaZpx z => [0xB5, z]
  | .ldaAbs a => [0xAD, lowByte a, highByte a]
  | .ldaAbsx a => [0xBD, lowByte a, highByte a]
  | .ldaAbsy a => [0xB9, lowByte a, highByte a]
  | .ldaIndx z => [0xA1, z]
  | .ldaIndy z => [0xB1, z]
  | .ldxImm v => [0xA2, v]
  | .ldxZp z => [0xA6, z]
  | .ldxZpy z => [0xB6, z]
  | .ldxAbs a => [0xAE, lowByte a, highByte a]
  | .ldxAbsy a => [0xBE, lowByte a, highByte a]
  | .ldyImm v => [0xA0, v]
  | .ldyZp z => [0xA4, z]
  | .ldyZpx z => [0xB4, z]
  | .ldyAbs a => [0xAC, lowByte a, highByte a]
  | .ldyAbsx a => [0xBC, lowByte a, highByte a]
  | .staZp z => [0x85, z]
  | .staZpx z => [0x95, z]
  | .staAbs a => [0x8D, lowByte a, highByte a]
  | .staAbsx a => [0x9D, lowByte a, highByte a]
  | .staAbsy a => [0x99, lowByte a, highByte a]
  | .staIndx z => [0x81, z]
  | .staIndy z => [0x91, z]
  | .stxZp z => [0x86, z]
  | .stxZpy z => [0x96, z]
  | .stxAbs a => [0x8E, lowByte a, highByte a]
  | .styZp z => [0x84, z]
  | .styZpx z => [0x94, z]
  | .styAbs a => [0x8C, lowByte a, highByte a]
  | .andImm v => [0x29, v]
  | .andZp z => [0x25, z]
  | .andZpx z => [0x35, z]
  | .andAbs a => [0x2D, lowByte a, highByte a]
  | .andAbsx a => [0x3D, lowByte a, highByte a]
  | .andAbsy a => [0x39, lowByte a, highByte a]
  | .andIndx z => [0x21, z]
  | .andIndy z => [0x31, z]
  | .oraImm v => [0x09, v]
  | .oraZp z => [0x05, z]
  | .oraZpx z => [0x15, z]
  | .oraAbs a => [0x0D, lowByte a, highByte a]
  | .oraAbsx a => [0x1D, lowByte a, highByte a]
  | .oraAbsy a => [0x19, lowByte a, highByte a]
  | .oraIndx z => [0x01, z]
  | .oraIndy z => [0x11, z]
  | .eorImm v => [0x49, v]
  | .eorZp z => [0x45, z]
  | .eorZpx z => [0x55, z]
  | .eorAbs a => [0x4D, lowByte a, highByte a]
  | .eorAbsx a => [0x5D, lowByte a, highByte a]
  | .eorAbsy a => [0x59, lowByte a, highByte a]
  | .eorIndx z => [0x41, z]
  | .eorIndy z => [0x51, z]
  | .bitZp z => [0x24, z]
  | .bitAbs a => [0x2C, lowByte a, highByte a]
  | .adcImm v => [0x69, v]
  | .adcZp z => [0x65, z]
  | .adcZpx z => [0x75, z]
  | .adcAbs a => [0x6D, lowByte a, highByte a]
  | .adcAbsx a => [0x7D, lowByte a, highByte a]
  | .adcAbsy a => [0x79, lowByte a, highByte a]
  | .adcIndx z => [0x61, z]
  | .adcIndy z => [0x71, z]
  | .sbcImm v => [0xE9, v]
  | .sbcZp z => [0xE5, z]
  | .sbcZpx z => [0xF5, z]
  | .sbcAbs a => [0xED, lowByte a, highByte a]
  | .sbcAbsx a => [0xFD, lowByte a, highByte a]
  | .sbcAbsy a => [0xF9, lowByte a, highByte a]
  | .sbcIndx z => [0xE1, z]
  | .sbcIndy z => [0xF1, z]
  | .cmpImm v => [0xC9, v]
  | .cmpZp z => [0xC5, z]
  | .cmpZpx z => [0xD5, z]
  | .cmpAbs a => [0xCD, lowByte a, highByte a]
  | .cmpAbsx a => [0xDD, lowByte a, highByte a]
  | .cmpAbsy a => [0xD9, lowByte a, highByte a]
  | .cmpIndx z => [0xC1, z]
  | .cmpIndy z => [0xD1, z]
  | .cpxImm v => [0xE0, v]
  | .cpxZp z => [0xE4, z]
  | .cpxAbs a => [0xEC, lowByte a, highByte a]
  | .cpyImm v => [0xC0, v]
  | .cpyZp z => [0xC4, z]
  | .cpyAbs a => [0xCC, lowByte a, highByte a]
  | .incZp z => [0xE6, z]
  | .incZpx z => [0xF6, z]
  | .incAbs a => [0xEE, lowByte a, highByte a]
  | .incAbsx a => [0xFE, lowByte a, highByte a]
  | .decZp z => [0xC6, z]
  | .decZpx z => [0xD6, z]
  | .decAbs a => [0xCE, lowByte a, highByte a]
  | .decAbsx a => [0xDE, lowByte a, highByte a]
  | .inx => [0xE8]
  | .iny => [0xC8]
  | .dex => [0xCA]
  | .dey => [0x88]
  | .aslAcc => [0x0A]
  | .aslZp z => [0x06, z]
  | .aslZpx z => [0x16, z]
  | .aslAbs a => [0x0E, lowByte a, highByte a]
  | .aslAbsx a => [0x1E, lowByte a, highByte a]
  | .lsrAcc => [0x4A]
  | .lsrZp z => [0x46, z]
  | .lsrZpx z => [0x56, z]
  | .lsrAbs a => [0x4E, lowByte a, highByte a]
  | .lsrAbsx a => [0x5E, lowByte a, highByte a]
  | .rolAcc => [0x2A]
  | .rolZp z => [0x26, z]
  | .rolZpx z => [0x36, z]
  | .rolAbs a => [0x2E, lowByte a, highByte a]
  | .rolAbsx a => [0x3E, lowByte a, highByte a]
  | .rorAcc => [0x6A]
  | .rorZp z => [0x66, z]
  | .rorZpx z => [0x76, z]
  | .rorAbs a => [0x6E, lowByte a, highByte a]
  | .rorAbsx a => [0x7E, lowByte a, highByte a]
  | .bcc d => [0x90, d]
  | .bcs d => [0xB0, d]
  | .beq d => [0xF0, d]
  | .bne d => [0xD0, d]
  | .bmi d => [0x30, d]
  | .bpl d => [0x10, d]
  | .bvc d => [0x50, d]
  | .bvs d => [0x70, d]
  | .pha => [0x48]
  | .php => [0x08]
  | .pla => [0x68]
  | .plp => [0x28]
  | .tax => [0xAA]
  | .tay => [0xA8]
  | .txa => [0x8A]
  | .tya => [0x98]
  | .tsx => [0xBA]
  | .txs => [0x9A]
  | .jmpAbs a => [0x4C, lowByte a, highByte a]
  | .jmpInd a => [0x6C, lowByte a, highByte a]
  | .jsr a => [0x20, lowByte a, highByte a]
  | .rts => [0x60]
  | .brk => [0x00]
  | .rti => [0x40]
  | .clc => [0x18]
  | .sec => [0x38]
  | .cli => [0x58]
  | .sei => [0x78]
  | .cld => [0xD8]
  | .sed => [0xF8]
  | .clv => [0xB8]
  | .nop => [0xEA]

/-- The opcode byte of an instruction. -/
def opcodeOf (i : Instr) : Byte := (encode i).headD 0

/-- The row of R85 an instruction belongs to. -/
def rowOf (i : Instr) : Option Row := lookupRow (opcodeOf i)

/-! ### Registration at initialization -/

/-- The fatal configuration error of R271. No tick raises it (DEDUCED, log entry 15, safe). -/
inductive ConfigError where
  /-- `registerOpcode` was called for a byte that already has a handler. -/
  | duplicateOpcode (op : Byte)
  deriving DecidableEq, Repr

/-- `registerOpcode(code, handler)`: "fails fatally if `code` already has a handler" (R103, R271). -/
def registerOpcode (t : List Row) (r : Row) : Except ConfigError (List Row) :=
  match findRow t r.op with
  | some _ => .error (.duplicateOpcode r.op)
  | none => .ok (t ++ [r])

/-- Register rows in order, stopping at the first fatal error: how init populates the table (R103, R300). -/
def registerAll (t : List Row) : List Row → Except ConfigError (List Row)
  | [] => .ok t
  | r :: rest =>
    match registerOpcode t r with
    | .ok t' => registerAll t' rest
    | .error e => .error e

end Sys2Proof
end

