-- ==== Sys2Proof/Machine/State.lean ====
section
/-!
DEFINITION. The state of the machine (R20, R45, R52), what one tick reports (R102), the two ways a tick ends
without a next state, and the state after init (R300).
-/

namespace Sys2Proof.Machine

/-- The 64 KiB memory of R51 and R52: the cells that do not hold `unlistedByte`, addresses rising. -/
abbrev Memory := List Host.Cell

/-- What an address no cell lists reads as. The spec leaves the initial image to the host (R52, U9); the vectors
of 95_test_vectors.md hold 0x00 there (DESIGN CHOICE, log entry 1, unsafe). -/
def unlistedByte : Byte := 0x00

/-- One call of the host's memory interface (R50, R53). -/
inductive Access where
  /-- `read(addr)` -/
  | read (addr : Addr)
  /-- `write(addr, value)` -/
  | write (addr : Addr) (value : Byte)
  deriving DecidableEq, Repr

/-- What the last tick returned to the host (R102). The outcomes `IllegalOpcode` and `Refused` end the run and
are a `Fault` and a `Refusal`. -/
inductive Report where
  /-- No tick has returned yet. -/
  | idle
  /-- `Executed(n)`: an instruction ran and took `cycles` cycles (R109). -/
  | executed (cycles : Nat)
  /-- `NotReady`: the core was held, 0 cycles (R102). -/
  | notReady
  deriving DecidableEq, Repr

/-- The whole machine: the record of R20, the host's memory (R52), the parameters of R9, and what the last tick
gave the host. -/
structure State where
  /-- accumulator -/
  a : Byte
  /-- index register X -/
  x : Byte
  /-- index register Y -/
  y : Byte
  /-- stack pointer, an offset into the stack page -/
  sp : Byte
  /-- status register P -/
  p : Byte
  /-- program counter -/
  pc : Addr
  /-- reset requested (R37) -/
  pendingReset : Bool
  /-- NMI requested; no rule of the core reads it (R38; UNVERIFIED, log entry 5, unsafe) -/
  pendingNmi : Bool
  /-- IRQ requested; no rule of the core reads it (R38; UNVERIFIED, log entry 5, unsafe) -/
  pendingIrq : Bool
  /-- the core may fetch (R39) -/
  ready : Bool
  /-- memory: the default MEM of R9 (R52; UNVERIFIED, log entry 6, unsafe) -/
  mem : Memory
  /-- the parameters of R9, which nothing changes (log entry 2) -/
  params : Config.Params
  /-- the value the last tick returned (R102): an output, read by no rule (log entry 3) -/
  report : Report
  /-- the memory calls since the last tick began, oldest first (R14, R63): an output, read by no rule (log entry 3) -/
  bus : List Access
  deriving DecidableEq, Repr

/-- Why a tick stops the run. -/
inductive Fault where
  /-- `IllegalOpcode(op)` (R270, R285), raised by a tick that fetches a byte with no handler; `after` is the state the
  spec gives that tick: PC past the byte, nothing else written. Safe: a run ends here, so no claim passes it (DESIGN CHOICE, log entry 4). -/
  | illegalOpcode (op : Byte) (after : State)
  deriving DecidableEq, Repr

/-- Why the model gives a tick no meaning. -/
inductive Refusal where
  /-- An instruction with no meaning yet, by its mnemonic; raised by an arm of exec only. Safe. -/
  | notModelled (mnemonic : String)
  /-- `Refused(DecimalMode)` (R102, R173): ADC or SBC with P.D = 1 under the parameter value
  `DECIMAL_MODE = Refuse` only. Safe: the spec gives the run no meaning from there (DESIGN CHOICE, log entry 19). -/
  | decimalMode
  deriving DecidableEq, Repr

/-- What a step or a meaning answers. -/
abbrev Result := Host.Outcome State Fault Refusal

/-- The state after init (R300, R45): every field zeroed, `pendingReset` true; no memory call is made. -/
def State.reset : State where
  a := 0x00
  x := 0x00
  y := 0x00
  sp := 0x00
  p := 0x00
  pc := 0x0000
  pendingReset := true
  pendingNmi := false
  pendingIrq := false
  ready := false
  mem := []
  params := Config.Params.launch
  report := .idle
  bus := []

end Sys2Proof.Machine
end

