-- ==== Sys2Proof/Machine/Ops.lean ====
section
/-!
DEFINITION. The named operations over memory and registers: memory cells and their canonical form, the access
helpers of R53 to R56, the stack primitives R60 and R61, taking the BRK trap and returning from it (R243, R244,
R274), and the reset step (R301).
-/

namespace Sys2Proof.Machine

/-! ### Memory cells -/

/-- The canonical form: addresses strictly rising and below 65536, no cell equal to what an unlisted address reads
as. `lo` is the least address the next cell may have. -/
def Memory.wfFrom (lo : Nat) : Memory → Bool
  | [] => true
  | (k, v) :: rest => decide (lo ≤ k) && decide (k < 65536) && (v != unlistedByte) && Memory.wfFrom (k + 1) rest

/-- Memory in its canonical form. -/
def Memory.wf (m : Memory) : Bool := Memory.wfFrom 0 m

/-- The byte at address `k`. -/
def Memory.get (m : Memory) (k : Nat) : Byte :=
  match m with
  | [] => unlistedByte
  | (j, v) :: rest => if j = k then v else Memory.get rest k

/-- Memory with no cell listed at `k`. -/
def Memory.erase (m : Memory) (k : Nat) : Memory :=
  match m with
  | [] => []
  | (j, v) :: rest => if j = k then Memory.erase rest k else (j, v) :: Memory.erase rest k

/-- Memory with one more cell, before the first cell of a greater address. -/
def Memory.insert (m : Memory) (k : Nat) (v : Byte) : Memory :=
  match m with
  | [] => [(k, v)]
  | (j, w) :: rest => if k < j then (k, v) :: (j, w) :: rest else (j, w) :: Memory.insert rest k v

/-- Memory with the byte at `k` replaced by `v` (R52). -/
def Memory.set (m : Memory) (k : Nat) (v : Byte) : Memory :=
  if v = unlistedByte then Memory.erase m k else Memory.insert (Memory.erase m k) k v

/-! ### Registers -/

/-- The general registers (R22). -/
inductive Reg where
  | a | x | y
  deriving DecidableEq, Repr

/-- Read a general register. -/
def State.reg (s : State) : Reg → Byte
  | .a => s.a
  | .x => s.x
  | .y => s.y

/-- Write a general register. -/
def State.setReg (s : State) (r : Reg) (v : Byte) : State :=
  match r with
  | .a => { s with a := v }
  | .x => { s with x := v }
  | .y => { s with y := v }

/-- A named flag of P (R13). -/
def State.flag (s : State) (f : Flag) : Bool := getFlag s.p f

/-- Write P. -/
def State.setP (s : State) (p : Byte) : State := { s with p := p }

/-- `setNZ(v)` on the state's P (R15). -/
def State.withNZ (s : State) (v : Byte) : State := s.setP (setNZ s.p v)

/-- Write PC. -/
def State.setPc (s : State) (pc : Addr) : State := { s with pc := pc }

/-- Write SP. -/
def State.setSp (s : State) (sp : Byte) : State := { s with sp := sp }

/-! ### Memory access -/

/-- The byte memory holds at an address (R52). -/
def State.byteAt (s : State) (addr : Addr) : Byte := Memory.get s.mem addr.toNat

/-- Note one memory call (R14: each primitive is one bus access, in the order listed). -/
def State.note (s : State) (acc : Access) : State := { s with bus := s.bus ++ [acc] }

/-- `Read8(addr)` (R53): one call of `read`. -/
def State.read8 (s : State) (addr : Addr) : Byte × State := (s.byteAt addr, s.note (.read addr))

/-- `Write8(addr, v)` (R53): one call of `write`. -/
def State.write8 (s : State) (addr : Addr) (v : Byte) : State :=
  { s.note (.write addr v) with mem := Memory.set s.mem addr.toNat v }

/-- Two reads, the low byte of the word first. -/
def State.readPair (s : State) (loAddr hiAddr : Addr) : Addr × State :=
  let lo := s.read8 loAddr
  let hi := lo.2.read8 hiAddr
  (joinBytes hi.1 lo.1, hi.2)

/-- `Read16(addr)` (R54): low byte at `addr`, high byte at `addr + 1` modulo 65536. -/
def State.read16 (s : State) (addr : Addr) : Addr × State := s.readPair addr (addr + 1)

/-- `Write16(addr, v)` (R55): low byte, then high byte at `addr + 1` modulo 65536. -/
def State.write16 (s : State) (addr : Addr) (v : Addr) : State :=
  (s.write8 addr (lowByte v)).write8 (addr + 1) (highByte v)

/-- A zero-page address (R82): the byte zero-extended. -/
def zpAddr (z : Byte) : Addr := z.setWidth 16

/-- `ReadZP16(p)` (R56): the pointer's second byte is read at `p + 1` modulo 256. -/
def State.readZp16 (s : State) (p : Byte) : Addr × State := s.readPair (zpAddr p) (zpAddr (p + 1))

/-- `Read8(PC); PC <- w16(PC + 1)` (R25). -/
def State.fetch8 (s : State) : Byte × State :=
  let b := s.read8 s.pc
  (b.1, b.2.setPc (s.pc + 1))

/-! ### Stack -/

/-- The stack address SP designates: `0x0100 + SP` (R7, R27). -/
def stackAddr (sp : Byte) : Addr := 0x0100 + sp.setWidth 16

/-- `Push(v)` (R60): write, then decrement SP modulo 256. -/
def State.push (s : State) (v : Byte) : State :=
  let t := s.write8 (stackAddr s.sp) v
  t.setSp (t.sp - 1)

/-- `Pull()` (R61): increment SP modulo 256, then read. -/
def State.pull (s : State) : Byte × State :=
  let t := s.setSp (s.sp + 1)
  t.read8 (stackAddr t.sp)

/-- Push a 16-bit value, high byte first (R241, R243). -/
def State.pushWord (s : State) (v : Addr) : State := (s.push (highByte v)).push (lowByte v)

/-- Pull a 16-bit value, low byte first (R242, R244). -/
def State.pullWord (s : State) : Addr × State :=
  let lo := s.pull
  let hi := lo.2.pull
  (joinBytes hi.1 lo.1, hi.2)

/-! ### The trap and the reset step -/

/-- Taking the trap (R243, R274): save the return address and a copy of P with bits 4 and 5 set, set P.I, and go to
the address the vector holds (UNVERIFIED, log entry 13, unsafe). -/
def State.takeTrap (s : State) (ret vector : Addr) : State :=
  let pushed := (s.pushWord ret).push (s.p ||| 0x30)
  let masked := pushed.setP (setFlag pushed.p .i true)
  let target := masked.read16 vector
  target.2.setPc target.1

/-- Returning from the trap (R244, R274): pull all 8 bits of P, then PC (UNVERIFIED, log entry 13, unsafe). -/
def State.returnFromTrap (s : State) : State :=
  let status := s.pull
  let ret := (status.2.setP status.1).pullWord
  ret.2.setPc ret.1

/-- The BRK vector (R243, R62). -/
def brkVector : Addr := 0xFFFE

/-- The reset vector (R8). -/
def resetVector : Addr := 0xFFFC

/-- Step 1 of a tick (R101, R301): with a reset pending, load PC from the reset vector and clear the request
(UNVERIFIED, log entry 12, unsafe). -/
def State.resetStep (s : State) : State :=
  if s.pendingReset then
    let v := s.read16 resetVector
    { v.2.setPc v.1 with pendingReset := false }
  else s

/-- `return n` (R15): the tick ends with the outcome `Executed(n)`. -/
def executed (n : Nat) (s : State) : Result := .next { s with report := .executed n }

end Sys2Proof.Machine
end

