-- ==== Sys2Proof/Machine/Operands.lean ====
section
/-!
DEFINITION. The addressing-mode resolver (R120 to R133), the operand value of the read class (R134), and the
cycles an instruction reports (R106 to R109). A meaning runs with PC past its operand bytes: the fetch has read
them and decoding has assembled them (R82).
-/

namespace Sys2Proof.Machine

/-- The operand of an instruction that names a byte: an immediate, or one of the eight memory modes (R81). -/
inductive Operand where
  | imm (v : Byte)
  | zp (z : Byte)
  | zpx (z : Byte)
  | zpy (z : Byte)
  | abs (a : Addr)
  | absx (a : Addr)
  | absy (a : Addr)
  | indx (z : Byte)
  | indy (z : Byte)
  deriving DecidableEq, Repr

/-- What the resolver returns (R120): the effective address, `extraCycle`, and the state after its pointer reads. -/
structure Resolved where
  ea : Addr
  extra : Bool
  after : State
  deriving DecidableEq, Repr

/-- `PageCross(base, final)` (R133). -/
def pageCross (base final : Addr) : Bool := (base &&& 0xFF00) != (final &&& 0xFF00)

/-- The indexed absolute address `w16(base + R)` and its page-cross signal (R128). -/
def indexed (base : Addr) (index : Byte) (s : State) : Resolved :=
  let ea := base + index.setWidth 16
  ⟨ea, pageCross base ea, s⟩

/-- `Resolve(mode)` (R123 to R130). An immediate's address is that of its operand byte, the byte before PC (R123). -/
def Operand.resolve (m : Operand) (s : State) : Resolved :=
  match m with
  | .imm _ => ⟨s.pc - 1, false, s⟩
  | .zp z => ⟨zpAddr z, false, s⟩
  | .zpx z => ⟨zpAddr (z + s.x), false, s⟩
  | .zpy z => ⟨zpAddr (z + s.y), false, s⟩
  | .abs a => ⟨a, false, s⟩
  | .absx a => indexed a s.x s
  | .absy a => indexed a s.y s
  | .indx z =>
    let ptr := s.readZp16 (z + s.x)
    ⟨ptr.1, false, ptr.2⟩
  | .indy z =>
    let base := s.readZp16 z
    indexed base.1 s.y base.2

/-- What reading an operand gives: its value V, `extraCycle`, and the state after the read. -/
structure Loaded where
  v : Byte
  extra : Bool
  after : State
  deriving DecidableEq, Repr

/-- `(EA, extraCycle) <- Resolve(mode); V <- Read8(EA)` (R134); an immediate is the operand byte the fetch has read
already, so no further read is made (R123). -/
def Operand.load (m : Operand) (s : State) : Loaded :=
  match m with
  | .imm v => ⟨v, false, s⟩
  | _ =>
    let r := m.resolve s
    let v := r.after.read8 r.ea
    ⟨v.1, r.extra, v.2⟩

/-- The indirect mode of JMP (R131): the target, and the state after the two pointer reads. -/
def resolveIndirect (ptr : Addr) (s : State) : Addr × State :=
  if s.params.jmpIndPageWrap then s.readPair ptr (joinBytes (highByte ptr) (lowByte ptr + 1))
  else s.read16 ptr

/-- The relative mode (R132): the target of a displacement, PC being past the branch. -/
def relTarget (d : Byte) (s : State) : Addr := s.pc + d.signExtend 16

/-- Cycles of the read class (R107, R109): one more on a page cross under both policies. -/
def readCycles (base : Nat) (extra : Bool) : Nat := base + extra.toNat

/-- Cycles of stores and read-modify-write instructions (R107, R109): one more on a page cross only under
`AllIndexed`. -/
def writeCycles (ps : Config.Params) (base : Nat) (extra : Bool) : Nat :=
  base + (extra && decide (ps.pageCrossPolicy = .allIndexed)).toNat

end Sys2Proof.Machine
end

