-- ==== Sys2Proof/Machine/Arith.lean ====
section
/-!
DEFINITION. The meanings of add, subtract, compare, increment and decrement (44_arith_compare.md). A meaning runs after its bytes
have been fetched, PC past them (R26).
-/

namespace Sys2Proof.Machine

/-- ADC and SBC (R171 to R173): the binary computation, or with P.D = 1 what `DECIMAL_MODE` says. -/
def accumulate (binary decimal : Byte → Byte → Bool → AluOut) (base : Nat) (m : Operand) (s : State) : Result :=
  let o := m.load s
  let finish (out : AluOut) : Result :=
    executed (readCycles base o.extra) ((o.after.setReg .a out.r).setP (aluFlags s.p out))
  if s.flag .d then
    match s.params.decimalMode with
    | .refuse => .refused .decimalMode
    | .binary => finish (binary s.a o.v (s.flag .c))
    | .nmosBcd => finish (decimal s.a o.v (s.flag .c))
  else finish (binary s.a o.v (s.flag .c))

/-- CMP, CPX, CPY: C, Z and N of the comparison; no register is written (R174 to R177). -/
def compareReg (r : Reg) (base : Nat) (m : Operand) (s : State) : Result :=
  let o := m.load s
  executed (readCycles base o.extra) (o.after.setP (compareFlags s.p (s.reg r) o.v))

/-- INC and DEC: read the byte at the effective address and write it back changed, N and Z of the result (R178,
R179, R194). -/
def modify (f : Byte → Byte) (base : Nat) (m : Operand) (s : State) : Result :=
  let e := m.resolve s
  let v := e.after.read8 e.ea
  let r := f v.1
  executed (writeCycles s.params base e.extra) ((v.2.write8 e.ea r).withNZ r)

/-- INX, INY, DEX, DEY: the register stepped modulo 256, N and Z of it (R180 to R183). -/
def stepReg (r : Reg) (f : Byte → Byte) (base : Nat) (s : State) : Result :=
  let v := f (s.reg r)
  executed base ((s.setReg r v).withNZ v)

/-- ADC #$nn (0x69), R171. -/
def execAdcImm (v : Byte) (s : State) : Result := accumulate addBinary addDecimal 2 (.imm v) s

/-- ADC $nn (0x65), R171. -/
def execAdcZp (z : Byte) (s : State) : Result := accumulate addBinary addDecimal 3 (.zp z) s

/-- ADC $nn,X (0x75), R171. -/
def execAdcZpx (z : Byte) (s : State) : Result := accumulate addBinary addDecimal 4 (.zpx z) s

/-- ADC $nnnn (0x6D), R171. -/
def execAdcAbs (a : Addr) (s : State) : Result := accumulate addBinary addDecimal 4 (.abs a) s

/-- ADC $nnnn,X (0x7D), R171. -/
def execAdcAbsx (a : Addr) (s : State) : Result := accumulate addBinary addDecimal 4 (.absx a) s

/-- ADC $nnnn,Y (0x79), R171. -/
def execAdcAbsy (a : Addr) (s : State) : Result := accumulate addBinary addDecimal 4 (.absy a) s

/-- ADC ($nn,X) (0x61), R171. -/
def execAdcIndx (z : Byte) (s : State) : Result := accumulate addBinary addDecimal 6 (.indx z) s

/-- ADC ($nn),Y (0x71), R171. -/
def execAdcIndy (z : Byte) (s : State) : Result := accumulate addBinary addDecimal 5 (.indy z) s

/-- SBC #$nn (0xE9), R172. -/
def execSbcImm (v : Byte) (s : State) : Result := accumulate subBinary subDecimal 2 (.imm v) s

/-- SBC $nn (0xE5), R172. -/
def execSbcZp (z : Byte) (s : State) : Result := accumulate subBinary subDecimal 3 (.zp z) s

/-- SBC $nn,X (0xF5), R172. -/
def execSbcZpx (z : Byte) (s : State) : Result := accumulate subBinary subDecimal 4 (.zpx z) s

/-- SBC $nnnn (0xED), R172. -/
def execSbcAbs (a : Addr) (s : State) : Result := accumulate subBinary subDecimal 4 (.abs a) s

/-- SBC $nnnn,X (0xFD), R172. -/
def execSbcAbsx (a : Addr) (s : State) : Result := accumulate subBinary subDecimal 4 (.absx a) s

/-- SBC $nnnn,Y (0xF9), R172. -/
def execSbcAbsy (a : Addr) (s : State) : Result := accumulate subBinary subDecimal 4 (.absy a) s

/-- SBC ($nn,X) (0xE1), R172. -/
def execSbcIndx (z : Byte) (s : State) : Result := accumulate subBinary subDecimal 6 (.indx z) s

/-- SBC ($nn),Y (0xF1), R172. -/
def execSbcIndy (z : Byte) (s : State) : Result := accumulate subBinary subDecimal 5 (.indy z) s

/-- CMP #$nn (0xC9), R175. -/
def execCmpImm (v : Byte) (s : State) : Result := compareReg .a 2 (.imm v) s

/-- CMP $nn (0xC5), R175. -/
def execCmpZp (z : Byte) (s : State) : Result := compareReg .a 3 (.zp z) s

/-- CMP $nn,X (0xD5), R175. -/
def execCmpZpx (z : Byte) (s : State) : Result := compareReg .a 4 (.zpx z) s

/-- CMP $nnnn (0xCD), R175. -/
def execCmpAbs (a : Addr) (s : State) : Result := compareReg .a 4 (.abs a) s

/-- CMP $nnnn,X (0xDD), R175. -/
def execCmpAbsx (a : Addr) (s : State) : Result := compareReg .a 4 (.absx a) s

/-- CMP $nnnn,Y (0xD9), R175. -/
def execCmpAbsy (a : Addr) (s : State) : Result := compareReg .a 4 (.absy a) s

/-- CMP ($nn,X) (0xC1), R175. -/
def execCmpIndx (z : Byte) (s : State) : Result := compareReg .a 6 (.indx z) s

/-- CMP ($nn),Y (0xD1), R175. -/
def execCmpIndy (z : Byte) (s : State) : Result := compareReg .a 5 (.indy z) s

/-- CPX #$nn (0xE0), R176. -/
def execCpxImm (v : Byte) (s : State) : Result := compareReg .x 2 (.imm v) s

/-- CPX $nn (0xE4), R176. -/
def execCpxZp (z : Byte) (s : State) : Result := compareReg .x 3 (.zp z) s

/-- CPX $nnnn (0xEC), R176. -/
def execCpxAbs (a : Addr) (s : State) : Result := compareReg .x 4 (.abs a) s

/-- CPY #$nn (0xC0), R177. -/
def execCpyImm (v : Byte) (s : State) : Result := compareReg .y 2 (.imm v) s

/-- CPY $nn (0xC4), R177. -/
def execCpyZp (z : Byte) (s : State) : Result := compareReg .y 3 (.zp z) s

/-- CPY $nnnn (0xCC), R177. -/
def execCpyAbs (a : Addr) (s : State) : Result := compareReg .y 4 (.abs a) s

/-- INC $nn (0xE6), R178. -/
def execIncZp (z : Byte) (s : State) : Result := modify (· + 1) 5 (.zp z) s

/-- INC $nn,X (0xF6), R178. -/
def execIncZpx (z : Byte) (s : State) : Result := modify (· + 1) 6 (.zpx z) s

/-- INC $nnnn (0xEE), R178. -/
def execIncAbs (a : Addr) (s : State) : Result := modify (· + 1) 6 (.abs a) s

/-- INC $nnnn,X (0xFE), R178. -/
def execIncAbsx (a : Addr) (s : State) : Result := modify (· + 1) 7 (.absx a) s

/-- DEC $nn (0xC6), R179. -/
def execDecZp (z : Byte) (s : State) : Result := modify (· - 1) 5 (.zp z) s

/-- DEC $nn,X (0xD6), R179. -/
def execDecZpx (z : Byte) (s : State) : Result := modify (· - 1) 6 (.zpx z) s

/-- DEC $nnnn (0xCE), R179. -/
def execDecAbs (a : Addr) (s : State) : Result := modify (· - 1) 6 (.abs a) s

/-- DEC $nnnn,X (0xDE), R179. -/
def execDecAbsx (a : Addr) (s : State) : Result := modify (· - 1) 7 (.absx a) s

/-- INX (0xE8), R180. -/
def execInx (s : State) : Result := stepReg .x (· + 1) 2 s

/-- INY (0xC8), R181. -/
def execIny (s : State) : Result := stepReg .y (· + 1) 2 s

/-- DEX (0xCA), R182. -/
def execDex (s : State) : Result := stepReg .x (· - 1) 2 s

/-- DEY (0x88), R183. -/
def execDey (s : State) : Result := stepReg .y (· - 1) 2 s

end Sys2Proof.Machine
end

