-- ==== Sys2Proof/Machine/Branch.lean ====
section
/-!
DEFINITION. The meanings of the conditional branches (46_branch.md). A meaning runs after its bytes
have been fetched, PC past them (R26).
-/

namespace Sys2Proof.Machine

/-- A conditional branch (R200, R201): taken, PC becomes the target, one cycle more and one more on a page cross. -/
def branch (taken : Bool) (base : Nat) (d : Byte) (s : State) : Result :=
  let target := relTarget d s
  if taken then executed (base + 1 + (pageCross s.pc target).toNat) (s.setPc target) else executed base s

/-- BCC label (0x90), R202. -/
def execBcc (d : Byte) (s : State) : Result := branch (!s.flag .c) 2 d s

/-- BCS label (0xB0), R203. -/
def execBcs (d : Byte) (s : State) : Result := branch (s.flag .c) 2 d s

/-- BEQ label (0xF0), R204. -/
def execBeq (d : Byte) (s : State) : Result := branch (s.flag .z) 2 d s

/-- BNE label (0xD0), R205. -/
def execBne (d : Byte) (s : State) : Result := branch (!s.flag .z) 2 d s

/-- BMI label (0x30), R206. -/
def execBmi (d : Byte) (s : State) : Result := branch (s.flag .n) 2 d s

/-- BPL label (0x10), R207. -/
def execBpl (d : Byte) (s : State) : Result := branch (!s.flag .n) 2 d s

/-- BVC label (0x50), R208. -/
def execBvc (d : Byte) (s : State) : Result := branch (!s.flag .v) 2 d s

/-- BVS label (0x70), R209. -/
def execBvs (d : Byte) (s : State) : Result := branch (s.flag .v) 2 d s

end Sys2Proof.Machine
end

