-- ==== Sys2Proof/Machine/Control.lean ====
section
/-!
DEFINITION. The meanings of jumps, subroutines, BRK and RTI, flag operations, NOP (48_control.md). A meaning runs after its bytes
have been fetched, PC past them (R26).
-/

namespace Sys2Proof.Machine

/-- The flag operations: exactly one named flag bit is written (R250 to R256). -/
def writeFlag (f : Flag) (c : Bool) (base : Nat) (s : State) : Result :=
  executed base (s.setP (setFlag s.p f c))

/-- JMP $nnnn (0x4C), R240. -/
def execJmpAbs (a : Addr) (s : State) : Result := executed 3 (s.setPc a)

/-- JMP ($nnnn) (0x6C), R240. -/
def execJmpInd (a : Addr) (s : State) : Result :=
  let t := resolveIndirect a s
  executed 5 (t.2.setPc t.1)

/-- JSR $nnnn (0x20), R241. -/
def execJsr (a : Addr) (s : State) : Result := executed 6 ((s.pushWord (s.pc - 1)).setPc a)

/-- RTS (0x60), R242. -/
def execRts (s : State) : Result :=
  let r := s.pullWord
  executed 6 (r.2.setPc (r.1 + 1))

/-- BRK (0x00), R243. -/
def execBrk (s : State) : Result := executed 7 (s.takeTrap (s.pc + 1) brkVector)

/-- RTI (0x40), R244. -/
def execRti (s : State) : Result := executed 6 s.returnFromTrap

/-- CLC (0x18), R250. -/
def execClc (s : State) : Result := writeFlag .c false 2 s

/-- SEC (0x38), R251. -/
def execSec (s : State) : Result := writeFlag .c true 2 s

/-- CLI (0x58), R252. -/
def execCli (s : State) : Result := writeFlag .i false 2 s

/-- SEI (0x78), R253. -/
def execSei (s : State) : Result := writeFlag .i true 2 s

/-- CLD (0xD8), R254. -/
def execCld (s : State) : Result := writeFlag .d false 2 s

/-- SED (0xF8), R255. -/
def execSed (s : State) : Result := writeFlag .d true 2 s

/-- CLV (0xB8), R256. -/
def execClv (s : State) : Result := writeFlag .v false 2 s

/-- NOP (0xEA), R257. -/
def execNop (s : State) : Result := executed 2 s

end Sys2Proof.Machine
end

