-- ==== Sys2Proof/Machine/LoadStore.lean ====
section
/-!
DEFINITION. The meanings of loads and stores (42_load_store.md). A meaning runs after its bytes
have been fetched, PC past them (R26).
-/

namespace Sys2Proof.Machine

/-- The load family: read the operand, store it into the register, N and Z from it (R140 to R142). -/
def loadReg (r : Reg) (base : Nat) (m : Operand) (s : State) : Result :=
  let o := m.load s
  executed (readCycles base o.extra) ((o.after.setReg r o.v).withNZ o.v)

/-- The store family: write the register at the effective address, with no read of it and no flag (R143 to R145). -/
def storeReg (r : Reg) (base : Nat) (m : Operand) (s : State) : Result :=
  let e := m.resolve s
  executed (writeCycles s.params base e.extra) (e.after.write8 e.ea (s.reg r))

/-- LDA #$nn (0xA9), R140. -/
def execLdaImm (v : Byte) (s : State) : Result := loadReg .a 2 (.imm v) s

/-- LDA $nn (0xA5), R140. -/
def execLdaZp (z : Byte) (s : State) : Result := loadReg .a 3 (.zp z) s

/-- LDA $nn,X (0xB5), R140. -/
def execLdaZpx (z : Byte) (s : State) : Result := loadReg .a 4 (.zpx z) s

/-- LDA $nnnn (0xAD), R140. -/
def execLdaAbs (a : Addr) (s : State) : Result := loadReg .a 4 (.abs a) s

/-- LDA $nnnn,X (0xBD), R140. -/
def execLdaAbsx (a : Addr) (s : State) : Result := loadReg .a 4 (.absx a) s

/-- LDA $nnnn,Y (0xB9), R140. -/
def execLdaAbsy (a : Addr) (s : State) : Result := loadReg .a 4 (.absy a) s

/-- LDA ($nn,X) (0xA1), R140. -/
def execLdaIndx (z : Byte) (s : State) : Result := loadReg .a 6 (.indx z) s

/-- LDA ($nn),Y (0xB1), R140. -/
def execLdaIndy (z : Byte) (s : State) : Result := loadReg .a 5 (.indy z) s

/-- LDX #$nn (0xA2), R141. -/
def execLdxImm (v : Byte) (s : State) : Result := loadReg .x 2 (.imm v) s

/-- LDX $nn (0xA6), R141. -/
def execLdxZp (z : Byte) (s : State) : Result := loadReg .x 3 (.zp z) s

/-- LDX $nn,Y (0xB6), R141. -/
def execLdxZpy (z : Byte) (s : State) : Result := loadReg .x 4 (.zpy z) s

/-- LDX $nnnn (0xAE), R141. -/
def execLdxAbs (a : Addr) (s : State) : Result := loadReg .x 4 (.abs a) s

/-- LDX $nnnn,Y (0xBE), R141. -/
def execLdxAbsy (a : Addr) (s : State) : Result := loadReg .x 4 (.absy a) s

/-- LDY #$nn (0xA0), R142. -/
def execLdyImm (v : Byte) (s : State) : Result := loadReg .y 2 (.imm v) s

/-- LDY $nn (0xA4), R142. -/
def execLdyZp (z : Byte) (s : State) : Result := loadReg .y 3 (.zp z) s

/-- LDY $nn,X (0xB4), R142. -/
def execLdyZpx (z : Byte) (s : State) : Result := loadReg .y 4 (.zpx z) s

/-- LDY $nnnn (0xAC), R142. -/
def execLdyAbs (a : Addr) (s : State) : Result := loadReg .y 4 (.abs a) s

/-- LDY $nnnn,X (0xBC), R142. -/
def execLdyAbsx (a : Addr) (s : State) : Result := loadReg .y 4 (.absx a) s

/-- STA $nn (0x85), R143. -/
def execStaZp (z : Byte) (s : State) : Result := storeReg .a 3 (.zp z) s

/-- STA $nn,X (0x95), R143. -/
def execStaZpx (z : Byte) (s : State) : Result := storeReg .a 4 (.zpx z) s

/-- STA $nnnn (0x8D), R143. -/
def execStaAbs (a : Addr) (s : State) : Result := storeReg .a 4 (.abs a) s

/-- STA $nnnn,X (0x9D), R143. -/
def execStaAbsx (a : Addr) (s : State) : Result := storeReg .a 5 (.absx a) s

/-- STA $nnnn,Y (0x99), R143. -/
def execStaAbsy (a : Addr) (s : State) : Result := storeReg .a 5 (.absy a) s

/-- STA ($nn,X) (0x81), R143. -/
def execStaIndx (z : Byte) (s : State) : Result := storeReg .a 6 (.indx z) s

/-- STA ($nn),Y (0x91), R143. -/
def execStaIndy (z : Byte) (s : State) : Result := storeReg .a 6 (.indy z) s

/-- STX $nn (0x86), R144. -/
def execStxZp (z : Byte) (s : State) : Result := storeReg .x 3 (.zp z) s

/-- STX $nn,Y (0x96), R144. -/
def execStxZpy (z : Byte) (s : State) : Result := storeReg .x 4 (.zpy z) s

/-- STX $nnnn (0x8E), R144. -/
def execStxAbs (a : Addr) (s : State) : Result := storeReg .x 4 (.abs a) s

/-- STY $nn (0x84), R145. -/
def execStyZp (z : Byte) (s : State) : Result := storeReg .y 3 (.zp z) s

/-- STY $nn,X (0x94), R145. -/
def execStyZpx (z : Byte) (s : State) : Result := storeReg .y 4 (.zpx z) s

/-- STY $nnnn (0x8C), R145. -/
def execStyAbs (a : Addr) (s : State) : Result := storeReg .y 4 (.abs a) s

end Sys2Proof.Machine
end

