-- ==== Sys2Proof/Machine/Logical.lean ====
section
/-!
DEFINITION. The meanings of the logical operations and BIT (43_logical.md). A meaning runs after its bytes
have been fetched, PC past them (R26).
-/

namespace Sys2Proof.Machine

/-- AND, ORA, EOR: A combined with the operand, N and Z of the result (R160 to R162). -/
def logic (f : Byte → Byte → Byte) (base : Nat) (m : Operand) (s : State) : Result :=
  let o := m.load s
  let v := f s.a o.v
  executed (readCycles base o.extra) ((o.after.setReg .a v).withNZ v)

/-- BIT: Z from A & V, N and V from the operand's bits 7 and 6; A is not written (R163). -/
def bitTest (base : Nat) (m : Operand) (s : State) : Result :=
  let o := m.load s
  executed (readCycles base o.extra) (o.after.setP (bitFlags s.p s.a o.v))

/-- AND #$nn (0x29), R160. -/
def execAndImm (v : Byte) (s : State) : Result := logic (· &&& ·) 2 (.imm v) s

/-- AND $nn (0x25), R160. -/
def execAndZp (z : Byte) (s : State) : Result := logic (· &&& ·) 3 (.zp z) s

/-- AND $nn,X (0x35), R160. -/
def execAndZpx (z : Byte) (s : State) : Result := logic (· &&& ·) 4 (.zpx z) s

/-- AND $nnnn (0x2D), R160. -/
def execAndAbs (a : Addr) (s : State) : Result := logic (· &&& ·) 4 (.abs a) s

/-- AND $nnnn,X (0x3D), R160. -/
def execAndAbsx (a : Addr) (s : State) : Result := logic (· &&& ·) 4 (.absx a) s

/-- AND $nnnn,Y (0x39), R160. -/
def execAndAbsy (a : Addr) (s : State) : Result := logic (· &&& ·) 4 (.absy a) s

/-- AND ($nn,X) (0x21), R160. -/
def execAndIndx (z : Byte) (s : State) : Result := logic (· &&& ·) 6 (.indx z) s

/-- AND ($nn),Y (0x31), R160. -/
def execAndIndy (z : Byte) (s : State) : Result := logic (· &&& ·) 5 (.indy z) s

/-- ORA #$nn (0x09), R161. -/
def execOraImm (v : Byte) (s : State) : Result := logic (· ||| ·) 2 (.imm v) s

/-- ORA $nn (0x05), R161. -/
def execOraZp (z : Byte) (s : State) : Result := logic (· ||| ·) 3 (.zp z) s

/-- ORA $nn,X (0x15), R161. -/
def execOraZpx (z : Byte) (s : State) : Result := logic (· ||| ·) 4 (.zpx z) s

/-- ORA $nnnn (0x0D), R161. -/
def execOraAbs (a : Addr) (s : State) : Result := logic (· ||| ·) 4 (.abs a) s

/-- ORA $nnnn,X (0x1D), R161. -/
def execOraAbsx (a : Addr) (s : State) : Result := logic (· ||| ·) 4 (.absx a) s

/-- ORA $nnnn,Y (0x19), R161. -/
def execOraAbsy (a : Addr) (s : State) : Result := logic (· ||| ·) 4 (.absy a) s

/-- ORA ($nn,X) (0x01), R161. -/
def execOraIndx (z : Byte) (s : State) : Result := logic (· ||| ·) 6 (.indx z) s

/-- ORA ($nn),Y (0x11), R161. -/
def execOraIndy (z : Byte) (s : State) : Result := logic (· ||| ·) 5 (.indy z) s

/-- EOR #$nn (0x49), R162. -/
def execEorImm (v : Byte) (s : State) : Result := logic (· ^^^ ·) 2 (.imm v) s

/-- EOR $nn (0x45), R162. -/
def execEorZp (z : Byte) (s : State) : Result := logic (· ^^^ ·) 3 (.zp z) s

/-- EOR $nn,X (0x55), R162. -/
def execEorZpx (z : Byte) (s : State) : Result := logic (· ^^^ ·) 4 (.zpx z) s

/-- EOR $nnnn (0x4D), R162. -/
def execEorAbs (a : Addr) (s : State) : Result := logic (· ^^^ ·) 4 (.abs a) s

/-- EOR $nnnn,X (0x5D), R162. -/
def execEorAbsx (a : Addr) (s : State) : Result := logic (· ^^^ ·) 4 (.absx a) s

/-- EOR $nnnn,Y (0x59), R162. -/
def execEorAbsy (a : Addr) (s : State) : Result := logic (· ^^^ ·) 4 (.absy a) s

/-- EOR ($nn,X) (0x41), R162. -/
def execEorIndx (z : Byte) (s : State) : Result := logic (· ^^^ ·) 6 (.indx z) s

/-- EOR ($nn),Y (0x51), R162. -/
def execEorIndy (z : Byte) (s : State) : Result := logic (· ^^^ ·) 5 (.indy z) s

/-- BIT $nn (0x24), R163. -/
def execBitZp (z : Byte) (s : State) : Result := bitTest 3 (.zp z) s

/-- BIT $nnnn (0x2C), R163. -/
def execBitAbs (a : Addr) (s : State) : Result := bitTest 4 (.abs a) s

end Sys2Proof.Machine
end

