-- ==== Sys2Proof/Machine/Shift.lean ====
section
/-!
DEFINITION. The meanings of shifts and rotates (45_shift_rotate.md). A meaning runs after its bytes
have been fetched, PC past them (R26).
-/

namespace Sys2Proof.Machine

/-- The accumulator form: no memory access (R190 to R194). -/
def shiftAcc (f : Byte → Bool → Shifted) (base : Nat) (s : State) : Result :=
  let o := f s.a (s.flag .c)
  executed base ((s.setReg .a o.r).setP (shiftFlags s.p o))

/-- The memory form: one read and one write of the effective address (R190 to R194). -/
def shiftMem (f : Byte → Bool → Shifted) (base : Nat) (m : Operand) (s : State) : Result :=
  let e := m.resolve s
  let v := e.after.read8 e.ea
  let o := f v.1 (s.flag .c)
  executed (writeCycles s.params base e.extra) ((v.2.write8 e.ea o.r).setP (shiftFlags s.p o))

/-- ASL A (0x0A), R190. -/
def execAslAcc (s : State) : Result := shiftAcc aslByte 2 s

/-- ASL $nn (0x06), R190. -/
def execAslZp (z : Byte) (s : State) : Result := shiftMem aslByte 5 (.zp z) s

/-- ASL $nn,X (0x16), R190. -/
def execAslZpx (z : Byte) (s : State) : Result := shiftMem aslByte 6 (.zpx z) s

/-- ASL $nnnn (0x0E), R190. -/
def execAslAbs (a : Addr) (s : State) : Result := shiftMem aslByte 6 (.abs a) s

/-- ASL $nnnn,X (0x1E), R190. -/
def execAslAbsx (a : Addr) (s : State) : Result := shiftMem aslByte 7 (.absx a) s

/-- LSR A (0x4A), R191. -/
def execLsrAcc (s : State) : Result := shiftAcc lsrByte 2 s

/-- LSR $nn (0x46), R191. -/
def execLsrZp (z : Byte) (s : State) : Result := shiftMem lsrByte 5 (.zp z) s

/-- LSR $nn,X (0x56), R191. -/
def execLsrZpx (z : Byte) (s : State) : Result := shiftMem lsrByte 6 (.zpx z) s

/-- LSR $nnnn (0x4E), R191. -/
def execLsrAbs (a : Addr) (s : State) : Result := shiftMem lsrByte 6 (.abs a) s

/-- LSR $nnnn,X (0x5E), R191. -/
def execLsrAbsx (a : Addr) (s : State) : Result := shiftMem lsrByte 7 (.absx a) s

/-- ROL A (0x2A), R192. -/
def execRolAcc (s : State) : Result := shiftAcc rolByte 2 s

/-- ROL $nn (0x26), R192. -/
def execRolZp (z : Byte) (s : State) : Result := shiftMem rolByte 5 (.zp z) s

/-- ROL $nn,X (0x36), R192. -/
def execRolZpx (z : Byte) (s : State) : Result := shiftMem rolByte 6 (.zpx z) s

/-- ROL $nnnn (0x2E), R192. -/
def execRolAbs (a : Addr) (s : State) : Result := shiftMem rolByte 6 (.abs a) s

/-- ROL $nnnn,X (0x3E), R192. -/
def execRolAbsx (a : Addr) (s : State) : Result := shiftMem rolByte 7 (.absx a) s

/-- ROR A (0x6A), R193. -/
def execRorAcc (s : State) : Result := shiftAcc rorByte 2 s

/-- ROR $nn (0x66), R193. -/
def execRorZp (z : Byte) (s : State) : Result := shiftMem rorByte 5 (.zp z) s

/-- ROR $nn,X (0x76), R193. -/
def execRorZpx (z : Byte) (s : State) : Result := shiftMem rorByte 6 (.zpx z) s

/-- ROR $nnnn (0x6E), R193. -/
def execRorAbs (a : Addr) (s : State) : Result := shiftMem rorByte 6 (.abs a) s

/-- ROR $nnnn,X (0x7E), R193. -/
def execRorAbsx (a : Addr) (s : State) : Result := shiftMem rorByte 7 (.absx a) s

end Sys2Proof.Machine
end

