-- ==== Sys2Proof/Machine/StackTransfer.lean ====
section
/-!
DEFINITION. The meanings of stack operations and register transfers (47_stack_transfer.md). A meaning runs after its bytes
have been fetched, PC past them (R26).
-/

namespace Sys2Proof.Machine

/-- TAX, TAY, TXA, TYA: copy a register, N and Z of the copy (R224 to R227). -/
def transfer (src dst : Reg) (base : Nat) (s : State) : Result :=
  executed base ((s.setReg dst (s.reg src)).withNZ (s.reg src))

/-- PHA (0x48), R220. -/
def execPha (s : State) : Result := executed 3 (s.push s.a)

/-- PHP (0x08), R221. -/
def execPhp (s : State) : Result := executed 3 (s.push s.p)

/-- PLA (0x68), R222. -/
def execPla (s : State) : Result :=
  let v := s.pull
  executed 4 ((v.2.setReg .a v.1).withNZ v.1)

/-- PLP (0x28), R223. -/
def execPlp (s : State) : Result :=
  let v := s.pull
  executed 4 (v.2.setP v.1)

/-- TAX (0xAA), R224. -/
def execTax (s : State) : Result := transfer .a .x 2 s

/-- TAY (0xA8), R225. -/
def execTay (s : State) : Result := transfer .a .y 2 s

/-- TXA (0x8A), R226. -/
def execTxa (s : State) : Result := transfer .x .a 2 s

/-- TYA (0x98), R227. -/
def execTya (s : State) : Result := transfer .y .a 2 s

/-- TSX (0xBA), R228. -/
def execTsx (s : State) : Result :=
  let t := s.setReg .x s.sp
  executed 2 (if s.params.tsxSetsNz then t.withNZ s.sp else t)

/-- TXS (0x9A), R229. -/
def execTxs (s : State) : Result := executed 2 (s.setSp s.x)

end Sys2Proof.Machine
end

