-- ==== Sys2Proof/Machine/Fetch.lean ====
section
/-!
DEFINITION. The parts of the tick around the handler (R101): its start, the held tick, and fetching an
instruction's bytes; and placing an instruction where the next tick fetches it.
-/

namespace Sys2Proof.Machine

/-- A tick begins: it has returned nothing and made no memory call yet. -/
def State.beginTick (s : State) : State := { s with report := .idle, bus := [] }

/-- The tick of a held core (R101 step 2, R281): `NotReady`, no further state change. -/
def State.hold (s : State) : State := { s with report := .notReady }

/-- The three bytes at PC, the most an instruction has (R83). -/
def State.window (s : State) : List Byte := [s.byteAt s.pc, s.byteAt (s.pc + 1), s.byteAt (s.pc + 2)]

/-- Fetch `n` bytes, each a read at PC that moves PC past it (R25). -/
def State.fetchMany (s : State) (n : Nat) : State :=
  match n with
  | 0 => s
  | n + 1 => State.fetchMany s.fetch8.2 n

/-- What fetching gives: an instruction, with the state past its bytes, or a byte with no handler, with the state
past that byte. -/
inductive Fetched where
  | instr (i : Instr) (after : State)
  | illegal (op : Byte) (after : State)
  deriving DecidableEq, Repr

/-- Steps 3 and 4 of the tick (R101) and the operand fetch of R120: an instruction of length L fetches exactly L
bytes (R63), a byte with no handler only itself (R270). All bytes are fetched before the meaning runs (DEDUCED, log
entry 10, safe). -/
def State.fetchInstr (s : State) : Fetched :=
  match decode s.window with
  | .ok (i, rest) => .instr i (s.fetchMany (3 - rest.length))
  | .error _ => .illegal (s.byteAt s.pc) (s.fetchMany 1)

/-- Where the next tick fetches its opcode: at the reset vector's word when a reset is pending (R301), else at PC. -/
def State.fetchAddr (s : State) : Addr := if s.pendingReset then (s.read16 resetVector).1 else s.pc

/-- Memory with bytes stored from an address on, wrapping at 65536. -/
def Memory.place (m : Memory) (addr : Addr) (bytes : List Byte) : Memory :=
  match bytes with
  | [] => m
  | b :: rest => Memory.place (Memory.set m addr.toNat b) (addr + 1) rest

/-- The bytes stored where the next tick fetches, the core ready. A pending reset stays pending, unless the bytes
would overwrite the reset vector itself: then PC is put at them and the request is cleared. -/
def State.placeInstr (s : State) (bytes : List Byte) : State :=
  let entry := s.fetchAddr
  let t := { s with mem := Memory.place s.mem entry bytes, ready := true }
  if t.fetchAddr = entry then t else { t with pc := entry, pendingReset := false }

end Sys2Proof.Machine
end

