-- ==== Sys2Proof/Machine/Step.lean ====
section
/-!
DEFINITION. One tick (R100, R101).
-/

namespace Sys2Proof.Machine

/-- `tick()` (R101): the reset step, the ready check, the fetch, the decode check, and the handler, in that order
(R276). -/
def step (s : State) : Host.Outcome State Fault Refusal :=
  let t := s.beginTick.resetStep
  if t.ready then
    match t.fetchInstr with
    | .instr i u => exec i u
    | .illegal op u => .fault (.illegalOpcode op u)
  else .next t.hold

/-- `s` with the instruction whose bits are `w` (see `tableBytes`) stored where the next tick fetches it, and the core
ready (log entry 8). -/
def State.withFetchWord (s : State) (nbits w : Nat) : State := s.placeInstr (tableBytes nbits w)

end Sys2Proof.Machine
end

