-- ==== Sys2Proof/Machine/Assembler.lean ====
section
/-!
DEFINITION. The assembler spelling of an instruction (R88, D17), the assembler's choice of zero page over
absolute, and its branch displacement. Spelling is not semantics: no meaning uses it (DESIGN CHOICE, log entry
18, safe).
-/

namespace Sys2Proof.Machine

/-- A hexadecimal digit. -/
def hexDigit (n : Nat) : Char := "0123456789ABCDEF".toList.getD n '?'

/-- Two hexadecimal digits of a number below 256. -/
def hex2 (n : Nat) : String := String.ofList [hexDigit (n / 16), hexDigit (n % 16)]

/-- `$nn` -/
def hexByte (b : Byte) : String := "$" ++ hex2 b.toNat

/-- `$nnnn` of an address given by its two bytes, the low byte first -/
def hexWord (lo hi : Byte) : String := "$" ++ hex2 hi.toNat ++ hex2 lo.toNat

/-- `*+d`: the target of a branch relative to the branch's own address, two before the byte the displacement
counts from (R132). -/
def spellTarget (d : Byte) : String :=
  let off := d.toInt + 2
  if off < 0 then "*-$" ++ hex2 off.natAbs else "*+$" ++ hex2 off.natAbs

/-- The operand's spelling for its mode (R88). -/
def spellOperand (m : Mode) (operand : List Byte) : String :=
  match m, operand with
  | .acc, _ => " A"
  | .imm, [v] => " #" ++ hexByte v
  | .zp, [z] => " " ++ hexByte z
  | .zpx, [z] => " " ++ hexByte z ++ ",X"
  | .zpy, [z] => " " ++ hexByte z ++ ",Y"
  | .abs, [lo, hi] => " " ++ hexWord lo hi
  | .absx, [lo, hi] => " " ++ hexWord lo hi ++ ",X"
  | .absy, [lo, hi] => " " ++ hexWord lo hi ++ ",Y"
  | .ind, [lo, hi] => " (" ++ hexWord lo hi ++ ")"
  | .indx, [z] => " (" ++ hexByte z ++ ",X)"
  | .indy, [z] => " (" ++ hexByte z ++ "),Y"
  | .rel, [d] => " " ++ spellTarget d
  | _, _ => ""

/-- A line of assembler for an instruction: the mnemonic of its row, then its operand (R88). -/
def spell (i : Instr) : String :=
  match rowOf i with
  | some row => row.mnemonic ++ spellOperand row.mode (encode i).tail
  | none => ""

/-- Whether a mnemonic has a form in a mode (R135). -/
def hasForm (mnemonic : String) (m : Mode) : Bool :=
  opcodeTable.any fun r => r.mnemonic == mnemonic && r.mode == m

/-- "An assembler chooses ZP over ABS when the address is below 0x0100 and the mnemonic has the ZP form" (R88). -/
def zeroPageOrAbsolute (mnemonic : String) (addr : Addr) : Mode :=
  if addr.toNat < 0x100 && hasForm mnemonic .zp then .zp else .abs

/-- The displacement of a branch at `origin` to `target`, when it lies in -128..127 (R88). -/
def branchDisplacement (origin target : Addr) : Option Byte :=
  let d := (target - (origin + 2)).toInt
  if -128 ≤ d ∧ d ≤ 127 then some (BitVec.ofInt 8 d) else none

end Sys2Proof.Machine
end

