-- ==== Sys2Proof/Machine/HostOps.lean ====
section
/-!
DEFINITION. What the host may do between ticks (R43, R282 to R284, R303): init with its memory image, the four
signals, loading a program, and the diagnostic operations. None of them is a step of the core (R19, R308; DESIGN CHOICE, log entry 9,
unsafe).
-/

namespace Sys2Proof.Machine

/-- `init()` (R300) beside the memory image the host has loaded and the parameters it chose: init makes no memory
access. -/
def State.initWith (image : Memory) (ps : Config.Params) : State :=
  { State.reset with mem := image, params := ps }

/-- One action of the host between two ticks (R284). -/
inductive HostAction where
  /-- set `ready` -/
  | setReady (b : Bool)
  /-- set `pendingReset` (to true: R37) -/
  | requestReset
  /-- set `pendingNmi` -/
  | setPendingNmi (b : Bool)
  /-- set `pendingIrq` -/
  | setPendingIrq (b : Bool)
  /-- load bytes into the host's memory (R303), with no call of the core -/
  | load (addr : Addr) (bytes : List Byte)
  /-- diagnostic `setFlag` (R283) -/
  | setFlag (f : Flag) (c : Bool)
  /-- diagnostic `getFlag` (R283) -/
  | getFlag (f : Flag)
  /-- diagnostic `read8` (R283) -/
  | read8 (addr : Addr)
  /-- diagnostic `write8` (R283) -/
  | write8 (addr : Addr) (v : Byte)
  /-- diagnostic `read16` (R283) -/
  | read16 (addr : Addr)
  /-- diagnostic `write16` (R283) -/
  | write16 (addr : Addr) (v : Addr)
  deriving DecidableEq, Repr

/-- What a host action answers: nothing, a flag, a byte or a word. -/
inductive HostAnswer where
  | done
  | bit (b : Bool)
  | byte (v : Byte)
  | word (v : Addr)
  deriving DecidableEq, Repr

/-- The answer of a host action and the state after it (R283, R284); the calls of a diagnostic operation are noted after
those of the last tick (DESIGN CHOICE, log entry 16, safe). -/
def State.host (s : State) : HostAction → HostAnswer × State
  | .setReady b => (.done, { s with ready := b })
  | .requestReset => (.done, { s with pendingReset := true })
  | .setPendingNmi b => (.done, { s with pendingNmi := b })
  | .setPendingIrq b => (.done, { s with pendingIrq := b })
  | .load addr bytes => (.done, { s with mem := Memory.place s.mem addr bytes })
  | .setFlag f c => (.done, s.setP (Sys2Proof.Machine.setFlag s.p f c))
  | .getFlag f => (.bit (s.flag f), s)
  | .read8 addr => (.byte (s.read8 addr).1, (s.read8 addr).2)
  | .write8 addr v => (.done, s.write8 addr v)
  | .read16 addr => (.word (s.read16 addr).1, (s.read16 addr).2)
  | .write16 addr v => (.done, s.write16 addr v)

end Sys2Proof.Machine
end

