-- ==== Sys2Proof/Safety.lean ====
section
/-!
DEFINITION. The terms claims are made in: a safe tick and run (R112, R285), the launch premise (R304), the state
invariant, and what an instruction's forms, operands and flag changes are, stated apart from the meanings.
-/

namespace Sys2Proof.Machine

/-! ### Runs -/

/-- A tick is safe when it has a next state: no `IllegalOpcode`, no refusal (R285). A held tick is safe, though it ends a
run (`endsRun`). -/
def Safe (r : Result) : Prop := ∃ t, r = .next t

/-- Whether a run ends at the tick boundary `t` (R112): the tick's outcome was not `Executed`, or PC is the stop
address, where the claim gives one. -/
def endsRun (stop : Option Addr) (t : State) : Bool :=
  match t.report with
  | .executed _ => decide (stop = some t.pc)
  | .notReady | .idle => true

/-- A run (R112, U14): tick until the first boundary that ends it, at most `ticks` times; a tick without a next state
ends it too (R285). DESIGN CHOICE, unsafe (log entry 20): the boundaries tested are those after a tick, so a run that
starts with PC at the stop address ticks at least once. -/
def runUntil (stop : Option Addr) (ticks : Nat) (s : State) : Result :=
  match ticks with
  | 0 => .next s
  | k + 1 =>
    match step s with
    | .next t => if endsRun stop t then .next t else runUntil stop k t
    | .fault r => .fault r
    | .refused r => .refused r

/-- The launch premise of a claim about decimal arithmetic (R304): the core is running, and its first instruction is the
one at `start`; P.D, like everything else, is free. -/
def Entry (s : State) (start : Addr) : Prop :=
  s.ready = true
    ∧ ((s.pendingReset = true ∧ joinBytes (s.byteAt 0xFFFD) (s.byteAt 0xFFFC) = start)
      ∨ (s.pendingReset = false ∧ s.pc = start))

/-- The launch premise `CleanEntry(S, start)` of every other claim (R304): `Entry`, with P.D = 0. -/
def CleanEntry (s : State) (start : Addr) : Prop := Entry s start ∧ s.flag .d = false

/-- The invariant of the state: memory in its canonical form. -/
def State.Inv (s : State) : Prop := Memory.wf s.mem = true

/-- What a tick of a running core may report (R102): from 2 to 8 cycles, at most 7 under `ReadsOnly`. -/
def InCycleRange (ps : Config.Params) (n : Nat) : Prop :=
  2 ≤ n ∧ n ≤ 8 ∧ (ps.pageCrossPolicy = .readsOnly → n ≤ 7)

/-! ### What an instruction does, in the spec's terms -/

/-- P changes exactly so: each named flag gets its value, every other bit of P is kept (R36). -/
def FlagsBecome (p p' : Byte) (changes : List (Flag × Bool)) : Prop :=
  (∀ fc ∈ changes, p'.getLsbD fc.1.bit = fc.2)
    ∧ ∀ k, (∀ fc ∈ changes, fc.1.bit ≠ k) → p'.getLsbD k = p.getLsbD k

/-- N and Z of a byte (R15): bit 7, and whether it is 0. -/
def nzOf (v : Byte) : List (Flag × Bool) := [(.n, v.getLsbD 7), (.z, decide (v.toNat = 0))]

/-- Memory changes exactly so: `addr` reads as `v` after, every other address reads as before. -/
def ByteBecomes (s t : State) (addr : Addr) (v : Byte) : Prop :=
  t.byteAt addr = v ∧ ∀ b, b ≠ addr → t.byteAt b = s.byteAt b

/-- The reads the resolver makes of a zero-page pointer (R129, R130): low byte, then high byte within page 0. -/
def pointerReads (s : State) : Operand → List Access
  | .indx z => [.read (zpAddr (z + s.x)), .read (zpAddr (z + s.x + 1))]
  | .indy z => [.read (zpAddr z), .read (zpAddr (z + 1))]
  | _ => []

/-- The operand value V (R123, R134). -/
def operandValue (s : State) (m : Operand) : Byte :=
  match m with
  | .imm v => v
  | _ => s.byteAt (m.resolve s).ea

/-- Every read an operand makes (R63, R134): the pointer bytes, then the data byte; none for an immediate. -/
def operandReads (s : State) (m : Operand) : List Access :=
  match m with
  | .imm _ => []
  | _ => pointerReads s m ++ [.read (m.resolve s).ea]

/-- One form of an instruction (R81, R85): the term, its bytes, its operand, and its base cycles. -/
structure Form where
  i : Instr
  bytes : List Byte
  m : Operand
  base : Nat

/-- Cycles of a read-class form (R107): one more on a page cross under both policies. -/
def Form.readCycles (f : Form) (s : State) : Nat := f.base + if (f.m.resolve s).extra then 1 else 0

/-- Cycles of a storing form (R107): one more on a page cross only under `AllIndexed`. -/
def Form.writeCycles (f : Form) (s : State) : Nat :=
  f.base + if (f.m.resolve s).extra ∧ s.params.pageCrossPolicy = .allIndexed then 1 else 0

/-- `i` is encoded as `bytes`, and its execution answers a next state with the property `post`. -/
def Does (i : Instr) (bytes : List Byte) (s : State) (post : State → Prop) : Prop :=
  encode i = bytes ∧ ∃ t, exec i s = .next t ∧ post t

/-! ### Whole-machine vocabulary -/

/-- The addresses an instruction stores to: the effective address of a store or read-modify-write form, the stack bytes
of a push, none for any other. -/
def storedAddrs (s : State) : Instr → List Addr
  | .staZp z | .stxZp z | .styZp z => [((Operand.zp z).resolve s).ea]
  | .staZpx z | .styZpx z => [((Operand.zpx z).resolve s).ea]
  | .stxZpy z => [((Operand.zpy z).resolve s).ea]
  | .staAbs a | .stxAbs a | .styAbs a => [((Operand.abs a).resolve s).ea]
  | .staAbsx a => [((Operand.absx a).resolve s).ea]
  | .staAbsy a => [((Operand.absy a).resolve s).ea]
  | .staIndx z => [((Operand.indx z).resolve s).ea]
  | .staIndy z => [((Operand.indy z).resolve s).ea]
  | .incZp z | .decZp z | .aslZp z | .lsrZp z | .rolZp z | .rorZp z => [((Operand.zp z).resolve s).ea]
  | .incZpx z | .decZpx z | .aslZpx z | .lsrZpx z | .rolZpx z | .rorZpx z => [((Operand.zpx z).resolve s).ea]
  | .incAbs a | .decAbs a | .aslAbs a | .lsrAbs a | .rolAbs a | .rorAbs a => [((Operand.abs a).resolve s).ea]
  | .incAbsx a | .decAbsx a | .aslAbsx a | .lsrAbsx a | .rolAbsx a | .rorAbsx a => [((Operand.absx a).resolve s).ea]
  | .pha | .php => [stackAddr s.sp]
  | .jsr _ => [stackAddr s.sp, stackAddr (s.sp - 1)]
  | .brk => [stackAddr s.sp, stackAddr (s.sp - 1), stackAddr (s.sp - 1 - 1)]
  | _ => []

/-- The mnemonic of an instruction, as its row of R85 has it. -/
def mnemonicOf (i : Instr) : String := (rowOf i).elim "" Row.mnemonic

/-- The flag a branch tests and the value it is taken on (R202 to R209). -/
def branchTest : String → Option (Flag × Bool)
  | "BCC" => some (.c, false)
  | "BCS" => some (.c, true)
  | "BEQ" => some (.z, true)
  | "BNE" => some (.z, false)
  | "BMI" => some (.n, true)
  | "BPL" => some (.n, false)
  | "BVC" => some (.v, false)
  | "BVS" => some (.v, true)
  | _ => none

/-- The base and the final address of an indexed or relative form, whose pages R133 compares: for ABSX, ABSY and
INDY the address before and after indexing, for REL the address after the branch and its target. -/
def crossing (m : Mode) (operand : List Byte) (s : State) : Option (Addr × Addr) :=
  match m, operand with
  | .absx, [lo, hi] => some (joinBytes hi lo, joinBytes hi lo + s.x.setWidth 16)
  | .absy, [lo, hi] => some (joinBytes hi lo, joinBytes hi lo + s.y.setWidth 16)
  | .indy, [z] =>
    let base := joinBytes (s.byteAt (zpAddr (z + 1))) (s.byteAt (zpAddr z))
    some (base, base + s.y.setWidth 16)
  | .rel, [d] => some (s.pc, s.pc + d.signExtend 16)
  | _, _ => none

/-- Whether the form crosses a page (R133): the high bytes differ. -/
def crosses (m : Mode) (operand : List Byte) (s : State) : Bool :=
  match crossing m operand s with
  | some (base, final) => decide (base.toNat / 256 ≠ final.toNat / 256)
  | none => false

/-- The cycles R109 gives an instruction, from its row of R85 alone. -/
def tableCycles (row : Row) (i : Instr) (s : State) : Nat :=
  let cross := crosses row.mode (encode i).tail s
  match row.cross with
  | .never => row.baseCycles
  | .reads => row.baseCycles + if cross then 1 else 0
  | .allIndexedOnly =>
    row.baseCycles + if cross ∧ s.params.pageCrossPolicy = .allIndexed then 1 else 0
  | .branch =>
    match branchTest row.mnemonic with
    | some (f, want) =>
      row.baseCycles + if s.p.getLsbD f.bit = want then 1 + (if cross then 1 else 0) else 0
    | none => row.baseCycles

/-- An outcome with a function applied to the state it carries. -/
def mapResult (f : State → State) : Result → Result
  | .next t => .next (f t)
  | .fault (.illegalOpcode op t) => .fault (.illegalOpcode op (f t))
  | .refused r => .refused r

/-- The state with the two interrupt requests replaced. -/
def withSignals (nmi irq : Bool) (s : State) : State := { s with pendingNmi := nmi, pendingIrq := irq }

/-- The state with all that R106 says nothing depends on blanked: the page-cross policy, the returned value and the
calls noted. -/
def forgetTiming (s : State) : State :=
  { s with report := .idle, bus := [], params := { s.params with pageCrossPolicy := .readsOnly } }

end Sys2Proof.Machine
end

