-- ==== Sys2Proof/Certificates/Slice0/Obligations.lean ====
section
/-!
DEFINITION. The statements for the provers, from the numbered rules of spec/. A meaning runs with PC past the
instruction's bytes (R26), so an instruction's statement speaks of `exec` at such a state, and
`StepRunsDecodedInstruction` ties it to the tick. A statement that gives a next state as `{ s with … }` gives every
register, signal and memory byte the instruction leaves unchanged.
-/

namespace Sys2Proof.Claims

open Sys2Proof.Machine

/-! ### The shapes of an instruction's effect -/

/-- A read-class form: the state becomes `result` but for P, where exactly the listed flags change, the operand's reads
and the cycle count. Memory, the other registers and the signals are those of `result`. -/
def ReadForm (f : Form) (s result : State) (flags : List (Flag × Bool)) : Prop :=
  Does f.i f.bytes s fun t =>
    t = { result with p := t.p, bus := s.bus ++ operandReads s f.m, report := .executed (f.readCycles s) }
      ∧ FlagsBecome s.p t.p flags

/-- A storing form: the byte at the effective address becomes `v`, no other byte changes, no read of it is made, and no
register or flag changes. -/
def StoreForm (f : Form) (s : State) (v : Byte) : Prop :=
  Does f.i f.bytes s fun t =>
    t = { s with
        mem := t.mem
        bus := s.bus ++ pointerReads s f.m ++ [.write (f.m.resolve s).ea v]
        report := .executed (f.writeCycles s) }
      ∧ ByteBecomes s t (f.m.resolve s).ea v

/-- A read-modify-write form: the byte at the effective address is read once and written once as `v`, no other byte
changes, and P changes in exactly the listed flags. -/
def RmwForm (f : Form) (s : State) (v : Byte) (flags : List (Flag × Bool)) : Prop :=
  Does f.i f.bytes s fun t =>
    t = { s with
        p := t.p
        mem := t.mem
        bus := s.bus ++ pointerReads s f.m ++ [.read (f.m.resolve s).ea, .write (f.m.resolve s).ea v]
        report := .executed (f.writeCycles s) }
      ∧ ByteBecomes s t (f.m.resolve s).ea v ∧ FlagsBecome s.p t.p flags

/-- An implied or accumulator form: the state becomes `result` but for P and the cycle count; no memory access. -/
def ImpliedForm (i : Instr) (op : Byte) (cycles : Nat) (s result : State) (flags : List (Flag × Bool)) : Prop :=
  Does i [op] s fun t =>
    t = { result with p := t.p, report := .executed cycles } ∧ FlagsBecome s.p t.p flags

/-- The byte a memory form reads. -/
def target (f : Form) (s : State) : Byte := s.byteAt (f.m.resolve s).ea

/-- A flag of P as a number. -/
def bitNat (s : State) (f : Flag) : Nat := if s.p.getLsbD f.bit then 1 else 0

/-- The stack address of a stack pointer: `0x0100 + SP` (R7). -/
def stack (sp : Byte) : Addr := BitVec.ofNat 16 (256 + sp.toNat)

/-- A signed result does not fit in 8 bits. -/
def Overflows (r : Int) : Bool := decide (r < -128 ∨ 127 < r)

/-- The byte of two decimal digits. -/
def bcd (n : Nat) : Byte := BitVec.ofNat 8 (n / 10 * 16 + n % 10)

/-- The state after an instruction's opcode and operand bytes have been fetched from PC (R25, R63). -/
def fetched (s : State) (i : Instr) : State :=
  { s with
    pc := s.pc + BitVec.ofNat 16 (encode i).length
    report := .idle
    bus := (List.range (encode i).length).map fun k => .read (s.pc + BitVec.ofNat 16 k) }

/-! ### The forms, from the encoding lines of the instruction rules -/

/-- The forms of LDA as R140 lists them. -/
def ldaForms (v z : Byte) (a : Addr) : List Form :=
  [ ⟨.ldaImm v, [0xA9, v], .imm v, 2⟩,
    ⟨.ldaZp z, [0xA5, z], .zp z, 3⟩,
    ⟨.ldaZpx z, [0xB5, z], .zpx z, 4⟩,
    ⟨.ldaAbs a, [0xAD, lowByte a, highByte a], .abs a, 4⟩,
    ⟨.ldaAbsx a, [0xBD, lowByte a, highByte a], .absx a, 4⟩,
    ⟨.ldaAbsy a, [0xB9, lowByte a, highByte a], .absy a, 4⟩,
    ⟨.ldaIndx z, [0xA1, z], .indx z, 6⟩,
    ⟨.ldaIndy z, [0xB1, z], .indy z, 5⟩ ]

/-- The forms of LDX as R141 lists them. -/
def ldxForms (v z : Byte) (a : Addr) : List Form :=
  [ ⟨.ldxImm v, [0xA2, v], .imm v, 2⟩,
    ⟨.ldxZp z, [0xA6, z], .zp z, 3⟩,
    ⟨.ldxZpy z, [0xB6, z], .zpy z, 4⟩,
    ⟨.ldxAbs a, [0xAE, lowByte a, highByte a], .abs a, 4⟩,
    ⟨.ldxAbsy a, [0xBE, lowByte a, highByte a], .absy a, 4⟩ ]

/-- The forms of LDY as R142 lists them. -/
def ldyForms (v z : Byte) (a : Addr) : List Form :=
  [ ⟨.ldyImm v, [0xA0, v], .imm v, 2⟩,
    ⟨.ldyZp z, [0xA4, z], .zp z, 3⟩,
    ⟨.ldyZpx z, [0xB4, z], .zpx z, 4⟩,
    ⟨.ldyAbs a, [0xAC, lowByte a, highByte a], .abs a, 4⟩,
    ⟨.ldyAbsx a, [0xBC, lowByte a, highByte a], .absx a, 4⟩ ]

/-- The forms of STA as R143 lists them. -/
def staForms (z : Byte) (a : Addr) : List Form :=
  [ ⟨.staZp z, [0x85, z], .zp z, 3⟩,
    ⟨.staZpx z, [0x95, z], .zpx z, 4⟩,
    ⟨.staAbs a, [0x8D, lowByte a, highByte a], .abs a, 4⟩,
    ⟨.staAbsx a, [0x9D, lowByte a, highByte a], .absx a, 5⟩,
    ⟨.staAbsy a, [0x99, lowByte a, highByte a], .absy a, 5⟩,
    ⟨.staIndx z, [0x81, z], .indx z, 6⟩,
    ⟨.staIndy z, [0x91, z], .indy z, 6⟩ ]

/-- The forms of STX as R144 lists them. -/
def stxForms (z : Byte) (a : Addr) : List Form :=
  [ ⟨.stxZp z, [0x86, z], .zp z, 3⟩,
    ⟨.stxZpy z, [0x96, z], .zpy z, 4⟩,
    ⟨.stxAbs a, [0x8E, lowByte a, highByte a], .abs a, 4⟩ ]

/-- The forms of STY as R145 lists them. -/
def styForms (z : Byte) (a : Addr) : List Form :=
  [ ⟨.styZp z, [0x84, z], .zp z, 3⟩,
    ⟨.styZpx z, [0x94, z], .zpx z, 4⟩,
    ⟨.styAbs a, [0x8C, lowByte a, highByte a], .abs a, 4⟩ ]

/-- The forms of AND as R160 lists them. -/
def andForms (v z : Byte) (a : Addr) : List Form :=
  [ ⟨.andImm v, [0x29, v], .imm v, 2⟩,
    ⟨.andZp z, [0x25, z], .zp z, 3⟩,
    ⟨.andZpx z, [0x35, z], .zpx z, 4⟩,
    ⟨.andAbs a, [0x2D, lowByte a, highByte a], .abs a, 4⟩,
    ⟨.andAbsx a, [0x3D, lowByte a, highByte a], .absx a, 4⟩,
    ⟨.andAbsy a, [0x39, lowByte a, highByte a], .absy a, 4⟩,
    ⟨.andIndx z, [0x21, z], .indx z, 6⟩,
    ⟨.andIndy z, [0x31, z], .indy z, 5⟩ ]

/-- The forms of ORA as R161 lists them. -/
def oraForms (v z : Byte) (a : Addr) : List Form :=
  [ ⟨.oraImm v, [0x09, v], .imm v, 2⟩,
    ⟨.oraZp z, [0x05, z], .zp z, 3⟩,
    ⟨.oraZpx z, [0x15, z], .zpx z, 4⟩,
    ⟨.oraAbs a, [0x0D, lowByte a, highByte a], .abs a, 4⟩,
    ⟨.oraAbsx a, [0x1D, lowByte a, highByte a], .absx a, 4⟩,
    ⟨.oraAbsy a, [0x19, lowByte a, highByte a], .absy a, 4⟩,
    ⟨.oraIndx z, [0x01, z], .indx z, 6⟩,
    ⟨.oraIndy z, [0x11, z], .indy z, 5⟩ ]

/-- The forms of EOR as R162 lists them. -/
def eorForms (v z : Byte) (a : Addr) : List Form :=
  [ ⟨.eorImm v, [0x49, v], .imm v, 2⟩,
    ⟨.eorZp z, [0x45, z], .zp z, 3⟩,
    ⟨.eorZpx z, [0x55, z], .zpx z, 4⟩,
    ⟨.eorAbs a, [0x4D, lowByte a, highByte a], .abs a, 4⟩,
    ⟨.eorAbsx a, [0x5D, lowByte a, highByte a], .absx a, 4⟩,
    ⟨.eorAbsy a, [0x59, lowByte a, highByte a], .absy a, 4⟩,
    ⟨.eorIndx z, [0x41, z], .indx z, 6⟩,
    ⟨.eorIndy z, [0x51, z], .indy z, 5⟩ ]

/-- The forms of BIT as R163 lists them. -/
def bitForms (z : Byte) (a : Addr) : List Form :=
  [ ⟨.bitZp z, [0x24, z], .zp z, 3⟩,
    ⟨.bitAbs a, [0x2C, lowByte a, highByte a], .abs a, 4⟩ ]

/-- The forms of ADC as R171 lists them. -/
def adcForms (v z : Byte) (a : Addr) : List Form :=
  [ ⟨.adcImm v, [0x69, v], .imm v, 2⟩,
    ⟨.adcZp z, [0x65, z], .zp z, 3⟩,
    ⟨.adcZpx z, [0x75, z], .zpx z, 4⟩,
    ⟨.adcAbs a, [0x6D, lowByte a, highByte a], .abs a, 4⟩,
    ⟨.adcAbsx a, [0x7D, lowByte a, highByte a], .absx a, 4⟩,
    ⟨.adcAbsy a, [0x79, lowByte a, highByte a], .absy a, 4⟩,
    ⟨.adcIndx z, [0x61, z], .indx z, 6⟩,
    ⟨.adcIndy z, [0x71, z], .indy z, 5⟩ ]

/-- The forms of SBC as R172 lists them. -/
def sbcForms (v z : Byte) (a : Addr) : List Form :=
  [ ⟨.sbcImm v, [0xE9, v], .imm v, 2⟩,
    ⟨.sbcZp z, [0xE5, z], .zp z, 3⟩,
    ⟨.sbcZpx z, [0xF5, z], .zpx z, 4⟩,
    ⟨.sbcAbs a, [0xED, lowByte a, highByte a], .abs a, 4⟩,
    ⟨.sbcAbsx a, [0xFD, lowByte a, highByte a], .absx a, 4⟩,
    ⟨.sbcAbsy a, [0xF9, lowByte a, highByte a], .absy a, 4⟩,
    ⟨.sbcIndx z, [0xE1, z], .indx z, 6⟩,
    ⟨.sbcIndy z, [0xF1, z], .indy z, 5⟩ ]

/-- The forms of CMP as R175 lists them. -/
def cmpForms (v z : Byte) (a : Addr) : List Form :=
  [ ⟨.cmpImm v, [0xC9, v], .imm v, 2⟩,
    ⟨.cmpZp z, [0xC5, z], .zp z, 3⟩,
    ⟨.cmpZpx z, [0xD5, z], .zpx z, 4⟩,
    ⟨.cmpAbs a, [0xCD, lowByte a, highByte a], .abs a, 4⟩,
    ⟨.cmpAbsx a, [0xDD, lowByte a, highByte a], .absx a, 4⟩,
    ⟨.cmpAbsy a, [0xD9, lowByte a, highByte a], .absy a, 4⟩,
    ⟨.cmpIndx z, [0xC1, z], .indx z, 6⟩,
    ⟨.cmpIndy z, [0xD1, z], .indy z, 5⟩ ]

/-- The forms of CPX as R176 lists them. -/
def cpxForms (v z : Byte) (a : Addr) : List Form :=
  [ ⟨.cpxImm v, [0xE0, v], .imm v, 2⟩,
    ⟨.cpxZp z, [0xE4, z], .zp z, 3⟩,
    ⟨.cpxAbs a, [0xEC, lowByte a, highByte a], .abs a, 4⟩ ]

/-- The forms of CPY as R177 lists them. -/
def cpyForms (v z : Byte) (a : Addr) : List Form :=
  [ ⟨.cpyImm v, [0xC0, v], .imm v, 2⟩,
    ⟨.cpyZp z, [0xC4, z], .zp z, 3⟩,
    ⟨.cpyAbs a, [0xCC, lowByte a, highByte a], .abs a, 4⟩ ]

/-- The forms of INC as R178 lists them. -/
def incForms (z : Byte) (a : Addr) : List Form :=
  [ ⟨.incZp z, [0xE6, z], .zp z, 5⟩,
    ⟨.incZpx z, [0xF6, z], .zpx z, 6⟩,
    ⟨.incAbs a, [0xEE, lowByte a, highByte a], .abs a, 6⟩,
    ⟨.incAbsx a, [0xFE, lowByte a, highByte a], .absx a, 7⟩ ]

/-- The forms of DEC as R179 lists them. -/
def decForms (z : Byte) (a : Addr) : List Form :=
  [ ⟨.decZp z, [0xC6, z], .zp z, 5⟩,
    ⟨.decZpx z, [0xD6, z], .zpx z, 6⟩,
    ⟨.decAbs a, [0xCE, lowByte a, highByte a], .abs a, 6⟩,
    ⟨.decAbsx a, [0xDE, lowByte a, highByte a], .absx a, 7⟩ ]

/-- The forms of ASL (memory forms) as R190 lists them. -/
def aslForms (z : Byte) (a : Addr) : List Form :=
  [ ⟨.aslZp z, [0x06, z], .zp z, 5⟩,
    ⟨.aslZpx z, [0x16, z], .zpx z, 6⟩,
    ⟨.aslAbs a, [0x0E, lowByte a, highByte a], .abs a, 6⟩,
    ⟨.aslAbsx a, [0x1E, lowByte a, highByte a], .absx a, 7⟩ ]

/-- The forms of LSR (memory forms) as R191 lists them. -/
def lsrForms (z : Byte) (a : Addr) : List Form :=
  [ ⟨.lsrZp z, [0x46, z], .zp z, 5⟩,
    ⟨.lsrZpx z, [0x56, z], .zpx z, 6⟩,
    ⟨.lsrAbs a, [0x4E, lowByte a, highByte a], .abs a, 6⟩,
    ⟨.lsrAbsx a, [0x5E, lowByte a, highByte a], .absx a, 7⟩ ]

/-- The forms of ROL (memory forms) as R192 lists them. -/
def rolForms (z : Byte) (a : Addr) : List Form :=
  [ ⟨.rolZp z, [0x26, z], .zp z, 5⟩,
    ⟨.rolZpx z, [0x36, z], .zpx z, 6⟩,
    ⟨.rolAbs a, [0x2E, lowByte a, highByte a], .abs a, 6⟩,
    ⟨.rolAbsx a, [0x3E, lowByte a, highByte a], .absx a, 7⟩ ]

/-- The forms of ROR (memory forms) as R193 lists them. -/
def rorForms (z : Byte) (a : Addr) : List Form :=
  [ ⟨.rorZp z, [0x66, z], .zp z, 5⟩,
    ⟨.rorZpx z, [0x76, z], .zpx z, 6⟩,
    ⟨.rorAbs a, [0x6E, lowByte a, highByte a], .abs a, 6⟩,
    ⟨.rorAbsx a, [0x7E, lowByte a, highByte a], .absx a, 7⟩ ]

/-- The 105 opcode bytes with no official instruction, as R86 lists them. -/
def illegalBytes : List Byte :=
  [0x02, 0x03, 0x04, 0x07, 0x0B, 0x0C, 0x0F, 0x12, 0x13, 0x14, 0x17, 0x1A, 0x1B, 0x1C, 0x1F] ++
  [0x22, 0x23, 0x27, 0x2B, 0x2F, 0x32, 0x33, 0x34, 0x37, 0x3A, 0x3B, 0x3C, 0x3F, 0x42, 0x43] ++
  [0x44, 0x47, 0x4B, 0x4F, 0x52, 0x53, 0x54, 0x57, 0x5A, 0x5B, 0x5C, 0x5F, 0x62, 0x63, 0x64] ++
  [0x67, 0x6B, 0x6F, 0x72, 0x73, 0x74, 0x77, 0x7A, 0x7B, 0x7C, 0x7F, 0x80, 0x82, 0x83, 0x87] ++
  [0x89, 0x8B, 0x8F, 0x92, 0x93, 0x97, 0x9B, 0x9C, 0x9E, 0x9F, 0xA3, 0xA7, 0xAB, 0xAF, 0xB2] ++
  [0xB3, 0xB7, 0xBB, 0xBF, 0xC2, 0xC3, 0xC7, 0xCB, 0xCF, 0xD2, 0xD3, 0xD4, 0xD7, 0xDA, 0xDB] ++
  [0xDC, 0xDF, 0xE2, 0xE3, 0xE7, 0xEB, 0xEF, 0xF2, 0xF3, 0xF4, 0xF7, 0xFA, 0xFB, 0xFC, 0xFF]

end Sys2Proof.Claims

open Sys2Proof Sys2Proof.Machine Sys2Proof.Claims

/-! ### Encoding -/

/-- Decoding an encoded well-formed instruction gives it back, whatever bytes follow (R80 to R83, R85). -/
def Obligations.DecodeOfEncodeIsIdentity : Prop :=
  ∀ (i : Instr) (rest : List Byte), i.wf = true → decode (encode i ++ rest) = .ok (i, rest)

/-- What decodes is the encoding of what it decodes to, followed by the bytes left over: no bit is dropped (R80, R82). -/
def Obligations.DecodedBytesAreTheEncoding : Prop :=
  ∀ (bytes rest : List Byte) (i : Instr), decode bytes = .ok (i, rest) → bytes = encode i ++ rest ∧ i.wf = true

/-- Words written out from the spec's encodings decode to the instructions they stand for (R81, R85). -/
def Obligations.SpecWordsDecode : Prop :=
  decode [0xA9, 0x80] = .ok (.ldaImm 0x80, []) ∧ decode [0x8D, 0x00, 0x02] = .ok (.staAbs 0x0200, [])
    ∧ decode [0x29, 0x25] = .ok (.andImm 0x25, []) ∧ decode [0xE0, 0x01] = .ok (.cpxImm 0x01, [])
    ∧ decode [0x4A] = .ok (.lsrAcc, []) ∧ decode [0x66, 0x20] = .ok (.rorZp 0x20, [])
    ∧ decode [0xF0, 0x20] = .ok (.beq 0x20, []) ∧ decode [0x48] = .ok (.pha, [])
    ∧ decode [0x6C, 0xFF, 0x10] = .ok (.jmpInd 0x10FF, []) ∧ decode [0x91, 0x20] = .ok (.staIndy 0x20, [])

/-- The 105 bytes of R86, and no other byte, have no registered handler; a tick that fetches one ends with
`IllegalOpcode` carrying it. -/
def Obligations.IllegalBytesHaveNoHandler : Prop :=
  (∀ op : Byte, findRow opcodeTable op = none ↔ op ∈ illegalBytes)
    ∧ ∀ s : State, s.ready = true → s.pendingReset = false → s.byteAt s.pc ∈ illegalBytes →
        ∃ u, step s = .fault (.illegalOpcode (s.byteAt s.pc) u)

/-- Registering a byte that already has a handler fails fatally, and registering the 151 rows of R85 in order succeeds
(R103, R271). -/
def Obligations.DuplicateRegistrationFails : Prop :=
  (∀ (t : List Row) (r : Row), (∃ q ∈ t, q.op = r.op) → registerOpcode t r = .error (.duplicateOpcode r.op))
    ∧ (∀ (t : List Row) (r : Row), (∀ q ∈ t, q.op ≠ r.op) → registerOpcode t r = .ok (t ++ [r]))
    ∧ registerAll [] opcodeTable = .ok opcodeTable ∧ opcodeTable.length = 151

/-! ### The tick -/

/-- Init leaves every field zeroed, `pendingReset` true and `ready` false, and makes no memory access (R300; that `ready`
is false is the spec's own decision D10). -/
def Obligations.InitZeroesAllFields : Prop :=
  let s := State.reset
  s.a = 0x00 ∧ s.x = 0x00 ∧ s.y = 0x00 ∧ s.sp = 0x00 ∧ s.p = 0x00 ∧ s.pc = 0x0000
    ∧ s.pendingReset = true ∧ s.pendingNmi = false ∧ s.pendingIrq = false ∧ s.ready = false ∧ s.bus = []

/-- A step runs the decoded instruction: when the bytes at PC decode to `i`, the tick of a ready core with no reset
pending is `exec i` at the state past exactly the bytes of `i` (R25, R63, R101). -/
def Obligations.StepRunsDecodedInstruction : Prop :=
  ∀ (s : State) (i : Instr) (rest : List Byte), s.ready = true → s.pendingReset = false →
    decode s.window = .ok (i, rest) → i.wf = true → step s = exec i (fetched s i)

/-- The same from an entry at `start`, reset pending or not, whatever P.D is (so from every `CleanEntry` in particular):
the first instruction at `start` runs, and with a reset pending the two vector reads come first (R301, R304; that the
tick goes on is the spec's own decision D14). -/
def Obligations.CleanEntryRunsTheFirstInstruction : Prop :=
  ∀ (s : State) (start : Addr) (i : Instr) (rest : List Byte), Entry s start →
    decode { s with pc := start }.window = .ok (i, rest) →
      step s = exec i { fetched { s with pc := start, pendingReset := false } i with
        bus := (if s.pendingReset then [.read 0xFFFC, .read 0xFFFD] else [])
          ++ (fetched { s with pc := start } i).bus }

/-- `IllegalOpcode` is raised by exactly the 105 bytes, and carries the byte; PC has advanced past the byte and nothing
else is written; with a reset pending its effect stands and PC is the vector plus one (R270). -/
def Obligations.IllegalOpcodeOnlyAdvancesPc : Prop :=
  ∀ s : State, s.ready = true →
    let v := joinBytes (s.byteAt 0xFFFD) (s.byteAt 0xFFFC)
    let fetchedAt := if s.pendingReset then v else s.pc
    (s.pendingReset = false → s.byteAt s.pc ∈ illegalBytes →
      step s = .fault (.illegalOpcode (s.byteAt s.pc)
        { s with pc := s.pc + 1, report := .idle, bus := [.read s.pc] }))
    ∧ (s.pendingReset = true → s.byteAt v ∈ illegalBytes →
      step s = .fault (.illegalOpcode (s.byteAt v)
        { s with
          pc := v + 1
          pendingReset := false
          report := .idle
          bus := [.read 0xFFFC, .read 0xFFFD, .read v] }))
    ∧ (s.byteAt fetchedAt ∉ illegalBytes → ∀ f, step s ≠ .fault f)

/-- Nothing else is an error: only a byte with no handler, fetched by a running core, makes a tick fault (R272). -/
def Obligations.OnlyIllegalBytesFault : Prop :=
  ∀ (s : State) (f : Fault), step s = .fault f →
    ∃ op u, f = .illegalOpcode op u ∧ op ∈ illegalBytes ∧ s.ready = true

/-- A held core fetches nothing and reports zero cycles; with a reset pending the reset step still runs first, and
changes PC and `pendingReset` only (R101, R281, R301). -/
def Obligations.HeldTickFetchesNothing : Prop :=
  ∀ s : State, s.ready = false →
    (s.pendingReset = false → step s = .next { s with report := .notReady, bus := [] })
    ∧ (s.pendingReset = true → step s = .next { s with
        pc := joinBytes (s.byteAt 0xFFFD) (s.byteAt 0xFFFC)
        pendingReset := false
        report := .notReady
        bus := [.read 0xFFFC, .read 0xFFFD] })

/-- The reset step: PC becomes the little-endian word at 0xFFFC and 0xFFFD, the request is cleared, and nothing else
changes; with no reset pending it does nothing; a ready core goes on, in the same tick, from the state the reset step
leaves, to the instruction it finds there, the vector reads of a pending reset before its fetches (R301, R302; that the
tick goes on is the spec's own decision D14). -/
def Obligations.ResetStepReloadsPcOnly : Prop :=
  ∀ s : State,
    (s.pendingReset = true → s.resetStep = { s with
      pc := BitVec.ofNat 16 ((s.byteAt 0xFFFD).toNat * 256 + (s.byteAt 0xFFFC).toNat)
      pendingReset := false
      bus := s.bus ++ [.read 0xFFFC, .read 0xFFFD] })
    ∧ (s.pendingReset = false → s.resetStep = s)
    ∧ (s.ready = true → ∀ i rest, decode s.resetStep.window = .ok (i, rest) →
      step s = exec i { fetched s.resetStep i with
        bus := (if s.pendingReset then [.read 0xFFFC, .read 0xFFFD] else []) ++ (fetched s.resetStep i).bus })

/-! ### Invariants of every step -/

/-- Every step keeps memory in its canonical form, whatever the state, also in the state an `IllegalOpcode` tick
leaves. -/
def Obligations.StepKeepsInvariant : Prop :=
  ∀ s : State, s.Inv →
    (∀ t, step s = .next t → t.Inv) ∧ ∀ op u, step s = .fault (.illegalOpcode op u) → u.Inv

/-- The state after init meets the invariant. -/
def Obligations.InitMeetsInvariant : Prop := State.reset.Inv

/-- Canonical memories that read alike at every address are equal data (R52). -/
def Obligations.CanonicalMemoryIsItsReads : Prop :=
  ∀ m n : Memory, Memory.wf m = true → Memory.wf n = true →
    (∀ k, k < 65536 → Memory.get m k = Memory.get n k) → m = n

/-- What a tick reports: `NotReady` exactly when the core is held, else a count of 2 to 7 cycles, up to 8 under
`AllIndexed` only (R102, R109). -/
def Obligations.ReportedCyclesInRange : Prop :=
  ∀ s t : State, step s = .next t →
    (s.ready = false ∧ t.report = .notReady)
      ∨ (s.ready = true ∧ ∃ n, t.report = .executed n ∧ InCycleRange s.params n)

/-- The core never writes `ready`, `pendingNmi` or `pendingIrq`, leaves the parameters as they are, and leaves no reset
pending (R37 to R39, R101). -/
def Obligations.StepLeavesHostSignals : Prop :=
  ∀ s t : State, step s = .next t →
    t.ready = s.ready ∧ t.pendingNmi = s.pendingNmi ∧ t.pendingIrq = s.pendingIrq ∧ t.params = s.params
      ∧ t.pendingReset = false

/-- Interrupts are not taken: a tick neither reads nor clears `pendingNmi` and `pendingIrq`, so replacing them before
the tick is replacing them after it (R275, the spec's own decision D9). -/
def Obligations.InterruptSignalsAreInert : Prop :=
  ∀ (s : State) (nmi irq : Bool),
    step (withSignals nmi irq s) = mapResult (withSignals nmi irq) (step s)

/-- No rule of the state, the memory or the control flow depends on cycle counts: two states that differ only in the
page-cross policy, the last report and the calls noted have ticks that differ only there (R106, R107). -/
def Obligations.TimingDoesNotAffectState : Prop :=
  ∀ s t : State, forgetTiming s = forgetTiming t →
    mapResult forgetTiming (step s) = mapResult forgetTiming (step t)

/-! ### Operands -/

/-- The effective address of every memory mode, its page-cross signal, and the pointer reads it makes; nothing else of
the state changes (R124 to R130, R133). -/
def Obligations.EffectiveAddresses : Prop :=
  ∀ (s : State) (z : Byte) (a : Addr),
    let low (p : Nat) : Nat := (s.byteAt (BitVec.ofNat 16 (p % 256))).toNat
    let cross (base final : Nat) : Bool := decide (base / 256 ≠ final / 256)
    let is (m : Operand) (ea : Nat) (extra : Bool) : Prop :=
      (m.resolve s).ea.toNat = ea ∧ (m.resolve s).extra = extra
        ∧ (m.resolve s).after = { s with bus := s.bus ++ pointerReads s m }
    let inx := low (z.toNat + s.x.toNat) + 256 * low (z.toNat + s.x.toNat + 1)
    let iny := low z.toNat + 256 * low (z.toNat + 1)
    is (.zp z) z.toNat false
      ∧ is (.zpx z) ((z.toNat + s.x.toNat) % 256) false
      ∧ is (.zpy z) ((z.toNat + s.y.toNat) % 256) false
      ∧ is (.abs a) a.toNat false
      ∧ is (.absx a) ((a.toNat + s.x.toNat) % 65536) (cross a.toNat ((a.toNat + s.x.toNat) % 65536))
      ∧ is (.absy a) ((a.toNat + s.y.toNat) % 65536) (cross a.toNat ((a.toNat + s.y.toNat) % 65536))
      ∧ is (.indx z) inx false
      ∧ is (.indy z) ((iny + s.y.toNat) % 65536) (cross iny ((iny + s.y.toNat) % 65536))

/-! ### Loads and stores -/

/-- LDA, LDX and LDY in every form: the register gets the operand, N and Z are the operand's (R140 to R142). -/
def Obligations.LoadsSetRegisterAndNZ : Prop :=
  ∀ (s : State) (v z : Byte) (a : Addr),
    (∀ f ∈ ldaForms v z a, ReadForm f s { s with a := operandValue s f.m } (nzOf (operandValue s f.m)))
      ∧ (∀ f ∈ ldxForms v z a, ReadForm f s { s with x := operandValue s f.m } (nzOf (operandValue s f.m)))
      ∧ ∀ f ∈ ldyForms v z a, ReadForm f s { s with y := operandValue s f.m } (nzOf (operandValue s f.m))

/-- STA, STX and STY in every form: the register is written at the effective address, no other byte, no flag and no
register changes, and the address is not read (R143 to R145). -/
def Obligations.StoresWriteOneByte : Prop :=
  ∀ (s : State) (z : Byte) (a : Addr),
    (∀ f ∈ staForms z a, StoreForm f s s.a)
      ∧ (∀ f ∈ stxForms z a, StoreForm f s s.x)
      ∧ ∀ f ∈ styForms z a, StoreForm f s s.y

/-! ### Logical operations -/

/-- AND, ORA and EOR in every form, bit by bit: A combined with the operand, N and Z of the result (R160 to R162). -/
def Obligations.LogicalOperationsOnA : Prop :=
  ∀ (s : State) (v z : Byte) (a : Addr),
    let does (f : Form) (op : Bool → Bool → Bool) : Prop :=
      ∃ r : Byte, (∀ k, k < 8 → r.getLsbD k = op (s.a.getLsbD k) ((operandValue s f.m).getLsbD k))
        ∧ ReadForm f s { s with a := r } (nzOf r)
    (∀ f ∈ andForms v z a, does f and) ∧ (∀ f ∈ oraForms v z a, does f or) ∧ ∀ f ∈ eorForms v z a, does f xor

/-- BIT in both forms: Z from A & V, N and V from bits 7 and 6 of the operand, A not written (R163, the
spec's own decision D16). -/
def Obligations.BitTestsMemory : Prop :=
  ∀ (s : State) (z : Byte) (a : Addr), ∀ f ∈ bitForms z a,
    ReadForm f s s
      [(.z, decide (s.a &&& operandValue s f.m = 0)), (.n, (operandValue s f.m).getLsbD 7),
        (.v, (operandValue s f.m).getLsbD 6)]

/-! ### Arithmetic -/

/-- ADC in every form, with P.D = 0 or `DECIMAL_MODE = Binary`: A plus the operand plus the carry, modulo 256; C is the
carry out, V the signed overflow, N and Z of the result (R170, R171). -/
def Obligations.AdcAddsWithCarry : Prop :=
  ∀ (s : State) (v z : Byte) (a : Addr), (s.p.getLsbD 3 = false ∨ s.params.decimalMode = .binary) →
    ∀ f ∈ adcForms v z a,
      let sum := s.a.toNat + (operandValue s f.m).toNat + bitNat s .c
      let r := BitVec.ofNat 8 sum
      ReadForm f s { s with a := r }
        (nzOf r ++ [(.c, decide (255 < sum)),
          (.v, Overflows (s.a.toInt + (operandValue s f.m).toInt + bitNat s .c))])

/-- SBC in every form, with P.D = 0 or `DECIMAL_MODE = Binary`: A minus the operand minus the borrow, modulo 256; C is
"no borrow", V the signed overflow, N and Z of the result (R172). -/
def Obligations.SbcSubtractsWithBorrow : Prop :=
  ∀ (s : State) (v z : Byte) (a : Addr), (s.p.getLsbD 3 = false ∨ s.params.decimalMode = .binary) →
    ∀ f ∈ sbcForms v z a,
      let d : Int := s.a.toNat - (operandValue s f.m).toNat - (1 - bitNat s .c)
      let r := BitVec.ofInt 8 d
      ReadForm f s { s with a := r }
        (nzOf r ++ [(.c, decide (0 ≤ d)),
          (.v, Overflows (s.a.toInt - (operandValue s f.m).toInt - (1 - bitNat s .c)))])

/-- `DecimalAdc(V)`: ADC with P.D = 1 under `NmosBcd`, in every form, on any operands: the digit sums, N and V from the
signed sum of the high digits, Z from the binary sum, C and A from the corrected sum; on two-digit decimal operands A is
their decimal sum with the carry, modulo 100, and C the decimal carry (R184). -/
def Obligations.DecimalAdcAddsDigits : Prop :=
  ∀ (s : State) (v z : Byte) (a : Addr), s.p.getLsbD 3 = true → s.params.decimalMode = .nmosBcd →
    ∀ f ∈ adcForms v z a,
      let o := operandValue s f.m
      let low := s.a.toNat % 16 + o.toNat % 16 + bitNat s .c
      let carried := if 10 ≤ low then (low + 6) % 16 + 16 else low
      let sum := s.a.toNat / 16 * 16 + o.toNat / 16 * 16 + carried
      let signed : Int := (s.a.toInt - (s.a.toNat % 16 : Nat)) + (o.toInt - (o.toNat % 16 : Nat)) + carried
      let total := if 160 ≤ sum then sum + 96 else sum
      ReadForm f s { s with a := BitVec.ofNat 8 total }
        [(.z, decide ((s.a.toNat + o.toNat + bitNat s .c) % 256 = 0)), (.n, decide (128 ≤ signed % 256)),
          (.v, Overflows signed), (.c, decide (256 ≤ total))]
        ∧ ∀ m n, m < 100 → n < 100 → s.a = bcd m → o = bcd n →
            BitVec.ofNat 8 total = bcd ((m + n + bitNat s .c) % 100)
              ∧ (256 ≤ total ↔ 100 ≤ m + n + bitNat s .c)

/-- `DecimalSbc(V)`: SBC with P.D = 1 under `NmosBcd`, in every form, on any operands: the flags of the binary SBC, and
in A the corrected digit differences; on two-digit decimal operands A is their decimal difference with the borrow,
modulo 100 (R185). -/
def Obligations.DecimalSbcSubtractsDigits : Prop :=
  ∀ (s : State) (v z : Byte) (a : Addr), s.p.getLsbD 3 = true → s.params.decimalMode = .nmosBcd →
    ∀ f ∈ sbcForms v z a,
      let o := operandValue s f.m
      let borrow : Int := 1 - bitNat s .c
      let d : Int := s.a.toNat - o.toNat - borrow
      let low : Int := (s.a.toNat % 16 : Nat) - (o.toNat % 16 : Nat) - borrow
      let borrowed : Int := if low < 0 then (low - 6) % 16 - 16 else low
      let diff : Int := (s.a.toNat / 16 * 16 : Nat) - (o.toNat / 16 * 16 : Nat) + borrowed
      let r := BitVec.ofInt 8 (if diff < 0 then diff - 96 else diff)
      ReadForm f s { s with a := r }
        (nzOf (BitVec.ofInt 8 d) ++ [(.c, decide (0 ≤ d)), (.v, Overflows (s.a.toInt - o.toInt - borrow))])
        ∧ ∀ m n, m < 100 → n < 100 → s.a = bcd m → o = bcd n →
            r = bcd ((m + 100 - n - (1 - bitNat s .c)) % 100)

/-- ADC and SBC with P.D = 1 under `DECIMAL_MODE = Refuse` are refused in every form, and nothing else is ever refused:
no other instruction consults P.D for that (R173, the spec's own decision D3). -/
def Obligations.DecimalRefusalIsTheOnlyStop : Prop :=
  (∀ (s : State) (v z : Byte) (a : Addr), s.p.getLsbD 3 = true → s.params.decimalMode = .refuse →
    ∀ f ∈ adcForms v z a ++ sbcForms v z a, exec f.i s = .refused .decimalMode)
    ∧ ∀ (i : Instr) (s : State),
        (∃ t, exec i s = .next t)
          ∨ (exec i s = .refused .decimalMode ∧ mnemonicOf i ∈ ["ADC", "SBC"] ∧ s.p.getLsbD 3 = true
              ∧ s.params.decimalMode = .refuse)

/-- CMP, CPX and CPY in every form: C is register ≥ operand unsigned, Z equality, N bit 7 of the difference; no register
is written, V, I and D are kept (R174 to R177). -/
def Obligations.ComparesSetCZN : Prop :=
  ∀ (s : State) (v z : Byte) (a : Addr),
    let does (f : Form) (r : Byte) : Prop :=
      ReadForm f s s
        [(.c, decide ((operandValue s f.m).toNat ≤ r.toNat)), (.z, decide (r = operandValue s f.m)),
          (.n, decide (128 ≤ ((r.toNat : Int) - (operandValue s f.m).toNat) % 256))]
    (∀ f ∈ cmpForms v z a, does f s.a) ∧ (∀ f ∈ cpxForms v z a, does f s.x) ∧ ∀ f ∈ cpyForms v z a, does f s.y

/-- INC and DEC in every form: one read and one write of the effective address, the byte stepped modulo 256, N and Z of
it, C and V kept (R178, R179, R194). -/
def Obligations.IncDecModifyMemory : Prop :=
  ∀ (s : State) (z : Byte) (a : Addr),
    (∀ f ∈ incForms z a,
      let r := BitVec.ofNat 8 ((target f s).toNat + 1)
      RmwForm f s r (nzOf r))
      ∧ ∀ f ∈ decForms z a,
        let r := BitVec.ofNat 8 ((target f s).toNat + 255)
        RmwForm f s r (nzOf r)

/-- INX, INY, DEX and DEY: the register stepped modulo 256, N and Z of it, nothing else (R180 to R183). -/
def Obligations.RegisterStepsWrap : Prop :=
  ∀ s : State,
    let up (v : Byte) : Byte := BitVec.ofNat 8 (v.toNat + 1)
    let down (v : Byte) : Byte := BitVec.ofNat 8 (v.toNat + 255)
    ImpliedForm .inx 0xE8 2 s { s with x := up s.x } (nzOf (up s.x))
      ∧ ImpliedForm .iny 0xC8 2 s { s with y := up s.y } (nzOf (up s.y))
      ∧ ImpliedForm .dex 0xCA 2 s { s with x := down s.x } (nzOf (down s.x))
      ∧ ImpliedForm .dey 0x88 2 s { s with y := down s.y } (nzOf (down s.y))

/-! ### Shifts and rotates -/

/-- ASL and LSR, accumulator and memory forms: doubled or halved, C the bit shifted out, N and Z of the result; the
accumulator form makes no memory access, a memory form one read and one write (R190, R191, R194). -/
def Obligations.ShiftsMoveOneBit : Prop :=
  ∀ (s : State) (z : Byte) (a : Addr),
    let left (v : Byte) : Byte := BitVec.ofNat 8 (2 * v.toNat)
    let right (v : Byte) : Byte := BitVec.ofNat 8 (v.toNat / 2)
    let leftFlags (v : Byte) : List (Flag × Bool) := (.c, decide (128 ≤ v.toNat)) :: nzOf (left v)
    let rightFlags (v : Byte) : List (Flag × Bool) :=
      [(.c, decide (v.toNat % 2 = 1)), (.n, false), (.z, decide (v.toNat < 2))]
    ImpliedForm .aslAcc 0x0A 2 s { s with a := left s.a } (leftFlags s.a)
      ∧ (∀ f ∈ aslForms z a, RmwForm f s (left (target f s)) (leftFlags (target f s)))
      ∧ ImpliedForm .lsrAcc 0x4A 2 s { s with a := right s.a } (rightFlags s.a)
      ∧ ∀ f ∈ lsrForms z a, RmwForm f s (right (target f s)) (rightFlags (target f s))

/-- ROL and ROR, accumulator and memory forms: as the shifts, with the old carry in the vacated bit; after ROR, N is the
old carry (R192 to R194). -/
def Obligations.RotatesGoThroughCarry : Prop :=
  ∀ (s : State) (z : Byte) (a : Addr),
    let left (v : Byte) : Byte := BitVec.ofNat 8 (2 * v.toNat + bitNat s .c)
    let right (v : Byte) : Byte := BitVec.ofNat 8 (v.toNat / 2 + 128 * bitNat s .c)
    let leftFlags (v : Byte) : List (Flag × Bool) := (.c, decide (128 ≤ v.toNat)) :: nzOf (left v)
    let rightFlags (v : Byte) : List (Flag × Bool) :=
      [(.c, decide (v.toNat % 2 = 1)), (.n, s.p.getLsbD 0), (.z, decide ((right v).toNat = 0))]
    ImpliedForm .rolAcc 0x2A 2 s { s with a := left s.a } (leftFlags s.a)
      ∧ (∀ f ∈ rolForms z a, RmwForm f s (left (target f s)) (leftFlags (target f s)))
      ∧ ImpliedForm .rorAcc 0x6A 2 s { s with a := right s.a } (rightFlags s.a)
      ∧ ∀ f ∈ rorForms z a, RmwForm f s (right (target f s)) (rightFlags (target f s))

/-- The rotation is through 9 bits: nine ROLs of A restore A and C (R192). -/
def Obligations.NineRotatesRestore : Prop :=
  ∀ s : State,
    let rol (o : Option State) : Option State :=
      match o with
      | some t => match exec .rolAcc t with
        | .next u => some u
        | _ => none
      | none => none
    ∃ t, rol^[9] (some s) = some t ∧ t.a = s.a ∧ t.p.getLsbD 0 = s.p.getLsbD 0

/-! ### Branches -/

/-- The eight branches: taken exactly when the tested flag has the branch's value; taken, PC becomes PC plus the signed
displacement modulo 65536 and the cost is 3 cycles, 4 when the page changes; not taken, PC is left past the branch and
the cost is 2; no flag, register or memory byte changes (R200 to R209). -/
def Obligations.BranchesTestOneFlag : Prop :=
  ∀ (s : State) (d : Byte),
    let does (mk : Byte → Instr) (op : Byte) (f : Flag) (want : Bool) : Prop :=
      Does (mk d) [op, d] s fun t =>
        let target := BitVec.ofInt 16 (s.pc.toNat + d.toInt)
        if s.p.getLsbD f.bit = want then
          t = { s with
            pc := target
            report := .executed (if s.pc.toNat / 256 = target.toNat / 256 then 3 else 4) }
        else t = { s with report := .executed 2 }
    does .bcc 0x90 .c false ∧ does .bcs 0xB0 .c true ∧ does .beq 0xF0 .z true ∧ does .bne 0xD0 .z false
      ∧ does .bmi 0x30 .n true ∧ does .bpl 0x10 .n false ∧ does .bvc 0x50 .v false ∧ does .bvs 0x70 .v true

/-! ### Stack operations and transfers -/

/-- PHA and PHP: the byte, P exactly as stored for PHP, is written at `0x0100 + SP`, then SP goes down modulo 256; no
other byte, register or flag changes (R220, R221). -/
def Obligations.PushesWriteTheStack : Prop :=
  ∀ s : State,
    let does (i : Instr) (op v : Byte) : Prop :=
      Does i [op] s fun t =>
        t = { s with
            sp := BitVec.ofNat 8 (s.sp.toNat + 255)
            mem := t.mem
            bus := s.bus ++ [.write (stack s.sp) v]
            report := .executed 3 }
          ∧ ByteBecomes s t (stack s.sp) v
    does .pha 0x48 s.a ∧ does .php 0x08 s.p

/-- PLA and PLP: SP goes up modulo 256, then the byte at `0x0100 + SP` is read; PLA writes A, N and Z, PLP all eight bits
of P (R222, R223; that PLA writes N and Z is the spec's own decision D16). -/
def Obligations.PullsReadTheStack : Prop :=
  ∀ s : State,
    let sp' : Byte := BitVec.ofNat 8 (s.sp.toNat + 1)
    let v := s.byteAt (stack sp')
    (Does .pla [0x68] s fun t =>
      t = { s with
          a := v
          sp := sp'
          p := t.p
          bus := s.bus ++ [.read (stack sp')]
          report := .executed 4 }
        ∧ FlagsBecome s.p t.p (nzOf v))
      ∧ Does .plp [0x28] s fun t =>
        t = { s with p := v, sp := sp', bus := s.bus ++ [.read (stack sp')], report := .executed 4 }

/-- TAX, TAY, TXA and TYA: a copy, N and Z of it (R224 to R227). -/
def Obligations.TransfersCopyAndSetNZ : Prop :=
  ∀ s : State,
    ImpliedForm .tax 0xAA 2 s { s with x := s.a } (nzOf s.a)
      ∧ ImpliedForm .tay 0xA8 2 s { s with y := s.a } (nzOf s.a)
      ∧ ImpliedForm .txa 0x8A 2 s { s with a := s.x } (nzOf s.x)
      ∧ ImpliedForm .tya 0x98 2 s { s with a := s.y } (nzOf s.y)

/-- TSX copies SP to X and writes N and Z exactly when `TSX_SETS_NZ`; TXS copies X to SP and writes no flag (R228,
R229; that TSX writes flags under the parameter is the spec's own decision D4). -/
def Obligations.StackPointerTransfers : Prop :=
  ∀ s : State,
    ImpliedForm .tsx 0xBA 2 s { s with x := s.sp } (if s.params.tsxSetsNz then nzOf s.sp else [])
      ∧ ImpliedForm .txs 0x9A 2 s { s with sp := s.x } []

/-! ### Control -/

/-- JMP: PC becomes the operand, or the word the pointer holds; under `JMP_IND_PAGE_WRAP` its high byte is read in the
pointer's own page (R131, R240; the parameter is the spec's own decision
D6). -/
def Obligations.JumpsSetPc : Prop :=
  ∀ (s : State) (a : Addr),
    let hiAddr : Addr :=
      if s.params.jmpIndPageWrap then BitVec.ofNat 16 (a.toNat / 256 * 256 + (a.toNat + 1) % 256)
      else BitVec.ofNat 16 (a.toNat + 1)
    (Does (.jmpAbs a) [0x4C, lowByte a, highByte a] s fun t => t = { s with pc := a, report := .executed 3 })
      ∧ Does (.jmpInd a) [0x6C, lowByte a, highByte a] s fun t =>
        t = { s with
          pc := BitVec.ofNat 16 ((s.byteAt hiAddr).toNat * 256 + (s.byteAt a).toNat)
          bus := s.bus ++ [.read a, .read hiAddr]
          report := .executed 5 }

/-- JSR: the address of its last byte is pushed, high byte first, and PC becomes the operand; no other byte changes
(R241). -/
def Obligations.JsrPushesReturnAddress : Prop :=
  ∀ (s : State) (a : Addr),
    let ret := BitVec.ofNat 16 (s.pc.toNat + 65535)
    Does (.jsr a) [0x20, lowByte a, highByte a] s fun t =>
      t = { s with
          pc := a
          sp := s.sp - 2
          mem := t.mem
          bus := s.bus ++ [.write (stack s.sp) (highByte ret), .write (stack (s.sp - 1)) (lowByte ret)]
          report := .executed 6 }
        ∧ t.byteAt (stack s.sp) = highByte ret ∧ t.byteAt (stack (s.sp - 1)) = lowByte ret
        ∧ ∀ b, b ≠ stack s.sp → b ≠ stack (s.sp - 1) → t.byteAt b = s.byteAt b

/-- RTS: PC becomes the pulled word, low byte first, plus one (R242). -/
def Obligations.RtsPullsPc : Prop :=
  ∀ s : State,
    Does .rts [0x60] s fun t =>
      t = { s with
        pc := BitVec.ofNat 16
          ((s.byteAt (stack (s.sp + 2))).toNat * 256 + (s.byteAt (stack (s.sp + 1))).toNat + 1)
        sp := s.sp + 2
        bus := s.bus ++ [.read (stack (s.sp + 1)), .read (stack (s.sp + 2))]
        report := .executed 6 }

/-- BRK takes the trap whatever P.I is: the address two past the opcode and P with bits 4 and 5 set are pushed, P.I is
set and no other bit of the stored P, and PC becomes the word at 0xFFFE (R243, R274, the spec's own decision D7). -/
def Obligations.BrkTakesTheTrap : Prop :=
  ∀ s : State,
    let ret := BitVec.ofNat 16 (s.pc.toNat + 1)
    Does .brk [0x00] s fun t =>
      t = { s with
          pc := joinBytes (s.byteAt 0xFFFF) (s.byteAt 0xFFFE)
          sp := s.sp - 3
          p := t.p
          mem := t.mem
          bus := s.bus ++ [.write (stack s.sp) (highByte ret), .write (stack (s.sp - 1)) (lowByte ret),
            .write (stack (s.sp - 2)) (s.p ||| 0x30), .read 0xFFFE, .read 0xFFFF]
          report := .executed 7 }
        ∧ FlagsBecome s.p t.p [(.i, true)]
        ∧ t.byteAt (stack s.sp) = highByte ret ∧ t.byteAt (stack (s.sp - 1)) = lowByte ret
        ∧ t.byteAt (stack (s.sp - 2)) = s.p ||| 0x30
        ∧ ∀ b, b ≠ stack s.sp → b ≠ stack (s.sp - 1) → b ≠ stack (s.sp - 2) → t.byteAt b = s.byteAt b

/-- RTI: all eight bits of P, then PC low, then PC high are pulled; nothing is added (R244, the spec's own decision D8). -/
def Obligations.RtiRestoresPAndPc : Prop :=
  ∀ s : State,
    Does .rti [0x40] s fun t =>
      t = { s with
        p := s.byteAt (stack (s.sp + 1))
        pc := joinBytes (s.byteAt (stack (s.sp + 3))) (s.byteAt (stack (s.sp + 2)))
        sp := s.sp + 3
        bus := s.bus ++ [.read (stack (s.sp + 1)), .read (stack (s.sp + 2)), .read (stack (s.sp + 3))]
        report := .executed 6 }

/-- The flag operations write exactly one named flag, and NOP nothing at all (R250 to R257). -/
def Obligations.FlagOperationsWriteOneBit : Prop :=
  ∀ s : State,
    ImpliedForm .clc 0x18 2 s s [(.c, false)] ∧ ImpliedForm .sec 0x38 2 s s [(.c, true)]
      ∧ ImpliedForm .cli 0x58 2 s s [(.i, false)] ∧ ImpliedForm .sei 0x78 2 s s [(.i, true)]
      ∧ ImpliedForm .cld 0xD8 2 s s [(.d, false)] ∧ ImpliedForm .sed 0xF8 2 s s [(.d, true)]
      ∧ ImpliedForm .clv 0xB8 2 s s [(.v, false)] ∧ ImpliedForm .nop 0xEA 2 s s []

/-! ### Round trips -/

/-- JSR then RTS goes back to the instruction after the JSR with SP as it was, whatever PC the RTS is fetched at (R242). -/
def Obligations.RtsUndoesJsr : Prop :=
  ∀ (s : State) (a pc' : Addr), ∃ t u,
    exec (.jsr a) s = .next t ∧ exec .rts { t with pc := pc' } = .next u ∧ u.pc = s.pc ∧ u.sp = s.sp

/-- A push then a pull restores the byte and SP: PHA and PLA for A, PHP and PLP for P, whatever A, P and PC hold in
between (R61, R223). -/
def Obligations.PullUndoesPush : Prop :=
  ∀ (s : State) (v : Byte) (pc' : Addr), ∃ t u t' u',
    exec .pha s = .next t ∧ exec .pla { t with a := v, pc := pc' } = .next u ∧ u.a = s.a ∧ u.sp = s.sp
      ∧ exec .php s = .next t' ∧ exec .plp { t' with p := v, pc := pc' } = .next u' ∧ u'.p = s.p ∧ u'.sp = s.sp

/-- BRK then RTI goes back to the address two past the BRK, with SP as it was and P with bits 4 and 5 set (R244, R274,
the spec's own decisions D7 and D8). -/
def Obligations.RtiUndoesBrk : Prop :=
  ∀ (s : State) (pc' : Addr), ∃ t u,
    exec .brk s = .next t ∧ exec .rti { t with pc := pc' } = .next u
      ∧ u.pc = s.pc + 1 ∧ u.sp = s.sp ∧ u.p = s.p ||| 0x30

/-- `write16(addr, v)` writes the low byte at `addr` and the high byte at `addr + 1` modulo 65536 and no other, and
`read16(addr)` then answers `v`, at every address, 0xFFFF too (R54, R55). -/
def Obligations.Read16UndoesWrite16 : Prop :=
  ∀ (s : State) (addr v : Addr),
    let t := (s.host (.write16 addr v)).2
    t.bus = s.bus ++ [.write addr (lowByte v), .write (BitVec.ofNat 16 (addr.toNat + 1)) (highByte v)]
      ∧ (t.host (.read16 addr)).1 = .word v
      ∧ t.byteAt addr = lowByte v ∧ t.byteAt (BitVec.ofNat 16 (addr.toNat + 1)) = highByte v
      ∧ ∀ b, b ≠ addr → b ≠ BitVec.ofNat 16 (addr.toNat + 1) → t.byteAt b = s.byteAt b

/-- The diagnostic `setFlag` sets or clears exactly the given bit, and `getFlag` answers it and changes nothing (R36,
R283). -/
def Obligations.DiagnosticFlagAccess : Prop :=
  ∀ (s : State) (f : Flag) (c : Bool),
    let t := (s.host (.setFlag f c)).2
    t = { s with p := t.p } ∧ FlagsBecome s.p t.p [(f, c)] ∧ t.host (.getFlag f) = (.bit c, t)
      ∧ (Flag.bit .c, Flag.bit .z, Flag.bit .i, Flag.bit .d, Flag.bit .v, Flag.bit .n) = (0, 1, 2, 3, 6, 7)

/-! ### Whole-machine rules -/

/-- Each bit of P is changed only by the instructions the spec lists as its writers; bits 4 and 5 only by PLP and RTI
(R29 to R35). -/
def Obligations.FlagWriters : Prop :=
  ∀ (i : Instr) (s t : State), exec i s = .next t →
    let changed (k : Nat) : Prop := t.p.getLsbD k ≠ s.p.getLsbD k
    let nz := ["LDA", "LDX", "LDY", "AND", "ORA", "EOR", "BIT", "ADC", "SBC", "CMP", "CPX", "CPY", "INC", "DEC",
      "INX", "INY", "DEX", "DEY", "ASL", "LSR", "ROL", "ROR", "PLA", "TAX", "TAY", "TXA", "TYA", "TSX", "PLP", "RTI"]
    (changed 0 → mnemonicOf i ∈ ["ADC", "SBC", "CMP", "CPX", "CPY", "ASL", "LSR", "ROL", "ROR", "CLC", "SEC", "PLP",
      "RTI"])
      ∧ (changed 1 → mnemonicOf i ∈ nz)
      ∧ (changed 2 → mnemonicOf i ∈ ["SEI", "CLI", "PLP", "RTI", "BRK"])
      ∧ (changed 3 → mnemonicOf i ∈ ["SED", "CLD", "PLP", "RTI"])
      ∧ (changed 4 ∨ changed 5 → mnemonicOf i ∈ ["PLP", "RTI"])
      ∧ (changed 6 → mnemonicOf i ∈ ["ADC", "SBC", "BIT", "CLV", "PLP", "RTI"])
      ∧ (changed 7 → mnemonicOf i ∈ nz)

/-- A, X, Y, SP and PC are changed only by the instructions the spec lists as their writers; of the shifts and rotates
only the accumulator forms change A (R22, R23, R26, R27). -/
def Obligations.RegisterWriters : Prop :=
  ∀ (i : Instr) (s t : State), exec i s = .next t →
    (t.a ≠ s.a → mnemonicOf i ∈ ["LDA", "AND", "ORA", "EOR", "ADC", "SBC", "PLA", "TXA", "TYA"]
      ∨ i ∈ [.aslAcc, .lsrAcc, .rolAcc, .rorAcc])
      ∧ (t.x ≠ s.x → mnemonicOf i ∈ ["LDX", "INX", "DEX", "TAX", "TSX"])
      ∧ (t.y ≠ s.y → mnemonicOf i ∈ ["LDY", "INY", "DEY", "TAY"])
      ∧ (t.sp ≠ s.sp → mnemonicOf i ∈ ["TXS", "PHA", "PHP", "PLA", "PLP", "JSR", "RTS", "BRK", "RTI"])
      ∧ (t.pc ≠ s.pc → mnemonicOf i ∈ ["BCC", "BCS", "BEQ", "BNE", "BMI", "BPL", "BVC", "BVS", "JMP", "JSR", "RTS",
        "BRK", "RTI"])

/-- Every byte of memory outside the bytes an instruction stores to reads as before (R63). -/
def Obligations.OnlyStoredBytesChange : Prop :=
  ∀ (i : Instr) (s t : State), exec i s = .next t →
    ∀ b : Addr, b ∉ storedAddrs s i → t.byteAt b = s.byteAt b

/-- The cycles an instruction reports are those its row of R85 gives with the additions of R107 and R108 (R109). -/
def Obligations.CyclesMatchOpcodeTable : Prop :=
  ∀ (i : Instr) (s t : State), exec i s = .next t →
    ∃ row ∈ opcodeTable, row.op = opcodeOf i ∧ t.report = .executed (tableCycles row i s)
end

