-- ==== Sys2Proof/Laws/Constructors.lean ====
section
/-!
SUPPORT. The mnemonic of every constructor and the addresses it stores to, so that a claim about all instructions never
searches the opcode table and never unfolds `storedAddrs`.
-/

namespace Sys2Proof.Machine

/-! ### Mnemonics -/

@[simp] theorem mnemonicOf_ldaImm (v : Byte) : mnemonicOf (.ldaImm v) = "LDA" := rfl
@[simp] theorem mnemonicOf_ldaZp (z : Byte) : mnemonicOf (.ldaZp z) = "LDA" := rfl
@[simp] theorem mnemonicOf_ldaZpx (z : Byte) : mnemonicOf (.ldaZpx z) = "LDA" := rfl
@[simp] theorem mnemonicOf_ldaAbs (a : Addr) : mnemonicOf (.ldaAbs a) = "LDA" := rfl
@[simp] theorem mnemonicOf_ldaAbsx (a : Addr) : mnemonicOf (.ldaAbsx a) = "LDA" := rfl
@[simp] theorem mnemonicOf_ldaAbsy (a : Addr) : mnemonicOf (.ldaAbsy a) = "LDA" := rfl
@[simp] theorem mnemonicOf_ldaIndx (z : Byte) : mnemonicOf (.ldaIndx z) = "LDA" := rfl
@[simp] theorem mnemonicOf_ldaIndy (z : Byte) : mnemonicOf (.ldaIndy z) = "LDA" := rfl
@[simp] theorem mnemonicOf_ldxImm (v : Byte) : mnemonicOf (.ldxImm v) = "LDX" := rfl
@[simp] theorem mnemonicOf_ldxZp (z : Byte) : mnemonicOf (.ldxZp z) = "LDX" := rfl
@[simp] theorem mnemonicOf_ldxZpy (z : Byte) : mnemonicOf (.ldxZpy z) = "LDX" := rfl
@[simp] theorem mnemonicOf_ldxAbs (a : Addr) : mnemonicOf (.ldxAbs a) = "LDX" := rfl
@[simp] theorem mnemonicOf_ldxAbsy (a : Addr) : mnemonicOf (.ldxAbsy a) = "LDX" := rfl
@[simp] theorem mnemonicOf_ldyImm (v : Byte) : mnemonicOf (.ldyImm v) = "LDY" := rfl
@[simp] theorem mnemonicOf_ldyZp (z : Byte) : mnemonicOf (.ldyZp z) = "LDY" := rfl
@[simp] theorem mnemonicOf_ldyZpx (z : Byte) : mnemonicOf (.ldyZpx z) = "LDY" := rfl
@[simp] theorem mnemonicOf_ldyAbs (a : Addr) : mnemonicOf (.ldyAbs a) = "LDY" := rfl
@[simp] theorem mnemonicOf_ldyAbsx (a : Addr) : mnemonicOf (.ldyAbsx a) = "LDY" := rfl
@[simp] theorem mnemonicOf_staZp (z : Byte) : mnemonicOf (.staZp z) = "STA" := rfl
@[simp] theorem mnemonicOf_staZpx (z : Byte) : mnemonicOf (.staZpx z) = "STA" := rfl
@[simp] theorem mnemonicOf_staAbs (a : Addr) : mnemonicOf (.staAbs a) = "STA" := rfl
@[simp] theorem mnemonicOf_staAbsx (a : Addr) : mnemonicOf (.staAbsx a) = "STA" := rfl
@[simp] theorem mnemonicOf_staAbsy (a : Addr) : mnemonicOf (.staAbsy a) = "STA" := rfl
@[simp] theorem mnemonicOf_staIndx (z : Byte) : mnemonicOf (.staIndx z) = "STA" := rfl
@[simp] theorem mnemonicOf_staIndy (z : Byte) : mnemonicOf (.staIndy z) = "STA" := rfl
@[simp] theorem mnemonicOf_stxZp (z : Byte) : mnemonicOf (.stxZp z) = "STX" := rfl
@[simp] theorem mnemonicOf_stxZpy (z : Byte) : mnemonicOf (.stxZpy z) = "STX" := rfl
@[simp] theorem mnemonicOf_stxAbs (a : Addr) : mnemonicOf (.stxAbs a) = "STX" := rfl
@[simp] theorem mnemonicOf_styZp (z : Byte) : mnemonicOf (.styZp z) = "STY" := rfl
@[simp] theorem mnemonicOf_styZpx (z : Byte) : mnemonicOf (.styZpx z) = "STY" := rfl
@[simp] theorem mnemonicOf_styAbs (a : Addr) : mnemonicOf (.styAbs a) = "STY" := rfl
@[simp] theorem mnemonicOf_andImm (v : Byte) : mnemonicOf (.andImm v) = "AND" := rfl
@[simp] theorem mnemonicOf_andZp (z : Byte) : mnemonicOf (.andZp z) = "AND" := rfl
@[simp] theorem mnemonicOf_andZpx (z : Byte) : mnemonicOf (.andZpx z) = "AND" := rfl
@[simp] theorem mnemonicOf_andAbs (a : Addr) : mnemonicOf (.andAbs a) = "AND" := rfl
@[simp] theorem mnemonicOf_andAbsx (a : Addr) : mnemonicOf (.andAbsx a) = "AND" := rfl
@[simp] theorem mnemonicOf_andAbsy (a : Addr) : mnemonicOf (.andAbsy a) = "AND" := rfl
@[simp] theorem mnemonicOf_andIndx (z : Byte) : mnemonicOf (.andIndx z) = "AND" := rfl
@[simp] theorem mnemonicOf_andIndy (z : Byte) : mnemonicOf (.andIndy z) = "AND" := rfl
@[simp] theorem mnemonicOf_oraImm (v : Byte) : mnemonicOf (.oraImm v) = "ORA" := rfl
@[simp] theorem mnemonicOf_oraZp (z : Byte) : mnemonicOf (.oraZp z) = "ORA" := rfl
@[simp] theorem mnemonicOf_oraZpx (z : Byte) : mnemonicOf (.oraZpx z) = "ORA" := rfl
@[simp] theorem mnemonicOf_oraAbs (a : Addr) : mnemonicOf (.oraAbs a) = "ORA" := rfl
@[simp] theorem mnemonicOf_oraAbsx (a : Addr) : mnemonicOf (.oraAbsx a) = "ORA" := rfl
@[simp] theorem mnemonicOf_oraAbsy (a : Addr) : mnemonicOf (.oraAbsy a) = "ORA" := rfl
@[simp] theorem mnemonicOf_oraIndx (z : Byte) : mnemonicOf (.oraIndx z) = "ORA" := rfl
@[simp] theorem mnemonicOf_oraIndy (z : Byte) : mnemonicOf (.oraIndy z) = "ORA" := rfl
@[simp] theorem mnemonicOf_eorImm (v : Byte) : mnemonicOf (.eorImm v) = "EOR" := rfl
@[simp] theorem mnemonicOf_eorZp (z : Byte) : mnemonicOf (.eorZp z) = "EOR" := rfl
@[simp] theorem mnemonicOf_eorZpx (z : Byte) : mnemonicOf (.eorZpx z) = "EOR" := rfl
@[simp] theorem mnemonicOf_eorAbs (a : Addr) : mnemonicOf (.eorAbs a) = "EOR" := rfl
@[simp] theorem mnemonicOf_eorAbsx (a : Addr) : mnemonicOf (.eorAbsx a) = "EOR" := rfl
@[simp] theorem mnemonicOf_eorAbsy (a : Addr) : mnemonicOf (.eorAbsy a) = "EOR" := rfl
@[simp] theorem mnemonicOf_eorIndx (z : Byte) : mnemonicOf (.eorIndx z) = "EOR" := rfl
@[simp] theorem mnemonicOf_eorIndy (z : Byte) : mnemonicOf (.eorIndy z) = "EOR" := rfl
@[simp] theorem mnemonicOf_bitZp (z : Byte) : mnemonicOf (.bitZp z) = "BIT" := rfl
@[simp] theorem mnemonicOf_bitAbs (a : Addr) : mnemonicOf (.bitAbs a) = "BIT" := rfl
@[simp] theorem mnemonicOf_adcImm (v : Byte) : mnemonicOf (.adcImm v) = "ADC" := rfl
@[simp] theorem mnemonicOf_adcZp (z : Byte) : mnemonicOf (.adcZp z) = "ADC" := rfl
@[simp] theorem mnemonicOf_adcZpx (z : Byte) : mnemonicOf (.adcZpx z) = "ADC" := rfl
@[simp] theorem mnemonicOf_adcAbs (a : Addr) : mnemonicOf (.adcAbs a) = "ADC" := rfl
@[simp] theorem mnemonicOf_adcAbsx (a : Addr) : mnemonicOf (.adcAbsx a) = "ADC" := rfl
@[simp] theorem mnemonicOf_adcAbsy (a : Addr) : mnemonicOf (.adcAbsy a) = "ADC" := rfl
@[simp] theorem mnemonicOf_adcIndx (z : Byte) : mnemonicOf (.adcIndx z) = "ADC" := rfl
@[simp] theorem mnemonicOf_adcIndy (z : Byte) : mnemonicOf (.adcIndy z) = "ADC" := rfl
@[simp] theorem mnemonicOf_sbcImm (v : Byte) : mnemonicOf (.sbcImm v) = "SBC" := rfl
@[simp] theorem mnemonicOf_sbcZp (z : Byte) : mnemonicOf (.sbcZp z) = "SBC" := rfl
@[simp] theorem mnemonicOf_sbcZpx (z : Byte) : mnemonicOf (.sbcZpx z) = "SBC" := rfl
@[simp] theorem mnemonicOf_sbcAbs (a : Addr) : mnemonicOf (.sbcAbs a) = "SBC" := rfl
@[simp] theorem mnemonicOf_sbcAbsx (a : Addr) : mnemonicOf (.sbcAbsx a) = "SBC" := rfl
@[simp] theorem mnemonicOf_sbcAbsy (a : Addr) : mnemonicOf (.sbcAbsy a) = "SBC" := rfl
@[simp] theorem mnemonicOf_sbcIndx (z : Byte) : mnemonicOf (.sbcIndx z) = "SBC" := rfl
@[simp] theorem mnemonicOf_sbcIndy (z : Byte) : mnemonicOf (.sbcIndy z) = "SBC" := rfl
@[simp] theorem mnemonicOf_cmpImm (v : Byte) : mnemonicOf (.cmpImm v) = "CMP" := rfl
@[simp] theorem mnemonicOf_cmpZp (z : Byte) : mnemonicOf (.cmpZp z) = "CMP" := rfl
@[simp] theorem mnemonicOf_cmpZpx (z : Byte) : mnemonicOf (.cmpZpx z) = "CMP" := rfl
@[simp] theorem mnemonicOf_cmpAbs (a : Addr) : mnemonicOf (.cmpAbs a) = "CMP" := rfl
@[simp] theorem mnemonicOf_cmpAbsx (a : Addr) : mnemonicOf (.cmpAbsx a) = "CMP" := rfl
@[simp] theorem mnemonicOf_cmpAbsy (a : Addr) : mnemonicOf (.cmpAbsy a) = "CMP" := rfl
@[simp] theorem mnemonicOf_cmpIndx (z : Byte) : mnemonicOf (.cmpIndx z) = "CMP" := rfl
@[simp] theorem mnemonicOf_cmpIndy (z : Byte) : mnemonicOf (.cmpIndy z) = "CMP" := rfl
@[simp] theorem mnemonicOf_cpxImm (v : Byte) : mnemonicOf (.cpxImm v) = "CPX" := rfl
@[simp] theorem mnemonicOf_cpxZp (z : Byte) : mnemonicOf (.cpxZp z) = "CPX" := rfl
@[simp] theorem mnemonicOf_cpxAbs (a : Addr) : mnemonicOf (.cpxAbs a) = "CPX" := rfl
@[simp] theorem mnemonicOf_cpyImm (v : Byte) : mnemonicOf (.cpyImm v) = "CPY" := rfl
@[simp] theorem mnemonicOf_cpyZp (z : Byte) : mnemonicOf (.cpyZp z) = "CPY" := rfl
@[simp] theorem mnemonicOf_cpyAbs (a : Addr) : mnemonicOf (.cpyAbs a) = "CPY" := rfl
@[simp] theorem mnemonicOf_incZp (z : Byte) : mnemonicOf (.incZp z) = "INC" := rfl
@[simp] theorem mnemonicOf_incZpx (z : Byte) : mnemonicOf (.incZpx z) = "INC" := rfl
@[simp] theorem mnemonicOf_incAbs (a : Addr) : mnemonicOf (.incAbs a) = "INC" := rfl
@[simp] theorem mnemonicOf_incAbsx (a : Addr) : mnemonicOf (.incAbsx a) = "INC" := rfl
@[simp] theorem mnemonicOf_decZp (z : Byte) : mnemonicOf (.decZp z) = "DEC" := rfl
@[simp] theorem mnemonicOf_decZpx (z : Byte) : mnemonicOf (.decZpx z) = "DEC" := rfl
@[simp] theorem mnemonicOf_decAbs (a : Addr) : mnemonicOf (.decAbs a) = "DEC" := rfl
@[simp] theorem mnemonicOf_decAbsx (a : Addr) : mnemonicOf (.decAbsx a) = "DEC" := rfl
@[simp] theorem mnemonicOf_inx : mnemonicOf .inx = "INX" := rfl
@[simp] theorem mnemonicOf_iny : mnemonicOf .iny = "INY" := rfl
@[simp] theorem mnemonicOf_dex : mnemonicOf .dex = "DEX" := rfl
@[simp] theorem mnemonicOf_dey : mnemonicOf .dey = "DEY" := rfl
@[simp] theorem mnemonicOf_aslAcc : mnemonicOf .aslAcc = "ASL" := rfl
@[simp] theorem mnemonicOf_aslZp (z : Byte) : mnemonicOf (.aslZp z) = "ASL" := rfl
@[simp] theorem mnemonicOf_aslZpx (z : Byte) : mnemonicOf (.aslZpx z) = "ASL" := rfl
@[simp] theorem mnemonicOf_aslAbs (a : Addr) : mnemonicOf (.aslAbs a) = "ASL" := rfl
@[simp] theorem mnemonicOf_aslAbsx (a : Addr) : mnemonicOf (.aslAbsx a) = "ASL" := rfl
@[simp] theorem mnemonicOf_lsrAcc : mnemonicOf .lsrAcc = "LSR" := rfl
@[simp] theorem mnemonicOf_lsrZp (z : Byte) : mnemonicOf (.lsrZp z) = "LSR" := rfl
@[simp] theorem mnemonicOf_lsrZpx (z : Byte) : mnemonicOf (.lsrZpx z) = "LSR" := rfl
@[simp] theorem mnemonicOf_lsrAbs (a : Addr) : mnemonicOf (.lsrAbs a) = "LSR" := rfl
@[simp] theorem mnemonicOf_lsrAbsx (a : Addr) : mnemonicOf (.lsrAbsx a) = "LSR" := rfl
@[simp] theorem mnemonicOf_rolAcc : mnemonicOf .rolAcc = "ROL" := rfl
@[simp] theorem mnemonicOf_rolZp (z : Byte) : mnemonicOf (.rolZp z) = "ROL" := rfl
@[simp] theorem mnemonicOf_rolZpx (z : Byte) : mnemonicOf (.rolZpx z) = "ROL" := rfl
@[simp] theorem mnemonicOf_rolAbs (a : Addr) : mnemonicOf (.rolAbs a) = "ROL" := rfl
@[simp] theorem mnemonicOf_rolAbsx (a : Addr) : mnemonicOf (.rolAbsx a) = "ROL" := rfl
@[simp] theorem mnemonicOf_rorAcc : mnemonicOf .rorAcc = "ROR" := rfl
@[simp] theorem mnemonicOf_rorZp (z : Byte) : mnemonicOf (.rorZp z) = "ROR" := rfl
@[simp] theorem mnemonicOf_rorZpx (z : Byte) : mnemonicOf (.rorZpx z) = "ROR" := rfl
@[simp] theorem mnemonicOf_rorAbs (a : Addr) : mnemonicOf (.rorAbs a) = "ROR" := rfl
@[simp] theorem mnemonicOf_rorAbsx (a : Addr) : mnemonicOf (.rorAbsx a) = "ROR" := rfl
@[simp] theorem mnemonicOf_bcc (d : Byte) : mnemonicOf (.bcc d) = "BCC" := rfl
@[simp] theorem mnemonicOf_bcs (d : Byte) : mnemonicOf (.bcs d) = "BCS" := rfl
@[simp] theorem mnemonicOf_beq (d : Byte) : mnemonicOf (.beq d) = "BEQ" := rfl
@[simp] theorem mnemonicOf_bne (d : Byte) : mnemonicOf (.bne d) = "BNE" := rfl
@[simp] theorem mnemonicOf_bmi (d : Byte) : mnemonicOf (.bmi d) = "BMI" := rfl
@[simp] theorem mnemonicOf_bpl (d : Byte) : mnemonicOf (.bpl d) = "BPL" := rfl
@[simp] theorem mnemonicOf_bvc (d : Byte) : mnemonicOf (.bvc d) = "BVC" := rfl
@[simp] theorem mnemonicOf_bvs (d : Byte) : mnemonicOf (.bvs d) = "BVS" := rfl
@[simp] theorem mnemonicOf_pha : mnemonicOf .pha = "PHA" := rfl
@[simp] theorem mnemonicOf_php : mnemonicOf .php = "PHP" := rfl
@[simp] theorem mnemonicOf_pla : mnemonicOf .pla = "PLA" := rfl
@[simp] theorem mnemonicOf_plp : mnemonicOf .plp = "PLP" := rfl
@[simp] theorem mnemonicOf_tax : mnemonicOf .tax = "TAX" := rfl
@[simp] theorem mnemonicOf_tay : mnemonicOf .tay = "TAY" := rfl
@[simp] theorem mnemonicOf_txa : mnemonicOf .txa = "TXA" := rfl
@[simp] theorem mnemonicOf_tya : mnemonicOf .tya = "TYA" := rfl
@[simp] theorem mnemonicOf_tsx : mnemonicOf .tsx = "TSX" := rfl
@[simp] theorem mnemonicOf_txs : mnemonicOf .txs = "TXS" := rfl
@[simp] theorem mnemonicOf_jmpAbs (a : Addr) : mnemonicOf (.jmpAbs a) = "JMP" := rfl
@[simp] theorem mnemonicOf_jmpInd (a : Addr) : mnemonicOf (.jmpInd a) = "JMP" := rfl
@[simp] theorem mnemonicOf_jsr (a : Addr) : mnemonicOf (.jsr a) = "JSR" := rfl
@[simp] theorem mnemonicOf_rts : mnemonicOf .rts = "RTS" := rfl
@[simp] theorem mnemonicOf_brk : mnemonicOf .brk = "BRK" := rfl
@[simp] theorem mnemonicOf_rti : mnemonicOf .rti = "RTI" := rfl
@[simp] theorem mnemonicOf_clc : mnemonicOf .clc = "CLC" := rfl
@[simp] theorem mnemonicOf_sec : mnemonicOf .sec = "SEC" := rfl
@[simp] theorem mnemonicOf_cli : mnemonicOf .cli = "CLI" := rfl
@[simp] theorem mnemonicOf_sei : mnemonicOf .sei = "SEI" := rfl
@[simp] theorem mnemonicOf_cld : mnemonicOf .cld = "CLD" := rfl
@[simp] theorem mnemonicOf_sed : mnemonicOf .sed = "SED" := rfl
@[simp] theorem mnemonicOf_clv : mnemonicOf .clv = "CLV" := rfl
@[simp] theorem mnemonicOf_nop : mnemonicOf .nop = "NOP" := rfl

/-! ### Stored addresses -/

@[simp] theorem storedAddrs_ldaImm (s : State) (v : Byte) : storedAddrs s (.ldaImm v) = [] := rfl
@[simp] theorem storedAddrs_ldaZp (s : State) (z : Byte) : storedAddrs s (.ldaZp z) = [] := rfl
@[simp] theorem storedAddrs_ldaZpx (s : State) (z : Byte) : storedAddrs s (.ldaZpx z) = [] := rfl
@[simp] theorem storedAddrs_ldaAbs (s : State) (a : Addr) : storedAddrs s (.ldaAbs a) = [] := rfl
@[simp] theorem storedAddrs_ldaAbsx (s : State) (a : Addr) : storedAddrs s (.ldaAbsx a) = [] := rfl
@[simp] theorem storedAddrs_ldaAbsy (s : State) (a : Addr) : storedAddrs s (.ldaAbsy a) = [] := rfl
@[simp] theorem storedAddrs_ldaIndx (s : State) (z : Byte) : storedAddrs s (.ldaIndx z) = [] := rfl
@[simp] theorem storedAddrs_ldaIndy (s : State) (z : Byte) : storedAddrs s (.ldaIndy z) = [] := rfl
@[simp] theorem storedAddrs_ldxImm (s : State) (v : Byte) : storedAddrs s (.ldxImm v) = [] := rfl
@[simp] theorem storedAddrs_ldxZp (s : State) (z : Byte) : storedAddrs s (.ldxZp z) = [] := rfl
@[simp] theorem storedAddrs_ldxZpy (s : State) (z : Byte) : storedAddrs s (.ldxZpy z) = [] := rfl
@[simp] theorem storedAddrs_ldxAbs (s : State) (a : Addr) : storedAddrs s (.ldxAbs a) = [] := rfl
@[simp] theorem storedAddrs_ldxAbsy (s : State) (a : Addr) : storedAddrs s (.ldxAbsy a) = [] := rfl
@[simp] theorem storedAddrs_ldyImm (s : State) (v : Byte) : storedAddrs s (.ldyImm v) = [] := rfl
@[simp] theorem storedAddrs_ldyZp (s : State) (z : Byte) : storedAddrs s (.ldyZp z) = [] := rfl
@[simp] theorem storedAddrs_ldyZpx (s : State) (z : Byte) : storedAddrs s (.ldyZpx z) = [] := rfl
@[simp] theorem storedAddrs_ldyAbs (s : State) (a : Addr) : storedAddrs s (.ldyAbs a) = [] := rfl
@[simp] theorem storedAddrs_ldyAbsx (s : State) (a : Addr) : storedAddrs s (.ldyAbsx a) = [] := rfl
@[simp] theorem storedAddrs_staZp (s : State) (z : Byte) : storedAddrs s (.staZp z) =
    [((Operand.zp z).resolve s).ea] := rfl
@[simp] theorem storedAddrs_staZpx (s : State) (z : Byte) : storedAddrs s (.staZpx z) =
    [((Operand.zpx z).resolve s).ea] := rfl
@[simp] theorem storedAddrs_staAbs (s : State) (a : Addr) : storedAddrs s (.staAbs a) =
    [((Operand.abs a).resolve s).ea] := rfl
@[simp] theorem storedAddrs_staAbsx (s : State) (a : Addr) : storedAddrs s (.staAbsx a) =
    [((Operand.absx a).resolve s).ea] := rfl
@[simp] theorem storedAddrs_staAbsy (s : State) (a : Addr) : storedAddrs s (.staAbsy a) =
    [((Operand.absy a).resolve s).ea] := rfl
@[simp] theorem storedAddrs_staIndx (s : State) (z : Byte) : storedAddrs s (.staIndx z) =
    [((Operand.indx z).resolve s).ea] := rfl
@[simp] theorem storedAddrs_staIndy (s : State) (z : Byte) : storedAddrs s (.staIndy z) =
    [((Operand.indy z).resolve s).ea] := rfl
@[simp] theorem storedAddrs_stxZp (s : State) (z : Byte) : storedAddrs s (.stxZp z) =
    [((Operand.zp z).resolve s).ea] := rfl
@[simp] theorem storedAddrs_stxZpy (s : State) (z : Byte) : storedAddrs s (.stxZpy z) =
    [((Operand.zpy z).resolve s).ea] := rfl
@[simp] theorem storedAddrs_stxAbs (s : State) (a : Addr) : storedAddrs s (.stxAbs a) =
    [((Operand.abs a).resolve s).ea] := rfl
@[simp] theorem storedAddrs_styZp (s : State) (z : Byte) : storedAddrs s (.styZp z) =
    [((Operand.zp z).resolve s).ea] := rfl
@[simp] theorem storedAddrs_styZpx (s : State) (z : Byte) : storedAddrs s (.styZpx z) =
    [((Operand.zpx z).resolve s).ea] := rfl
@[simp] theorem storedAddrs_styAbs (s : State) (a : Addr) : storedAddrs s (.styAbs a) =
    [((Operand.abs a).resolve s).ea] := rfl
@[simp] theorem storedAddrs_andImm (s : State) (v : Byte) : storedAddrs s (.andImm v) = [] := rfl
@[simp] theorem storedAddrs_andZp (s : State) (z : Byte) : storedAddrs s (.andZp z) = [] := rfl
@[simp] theorem storedAddrs_andZpx (s : State) (z : Byte) : storedAddrs s (.andZpx z) = [] := rfl
@[simp] theorem storedAddrs_andAbs (s : State) (a : Addr) : storedAddrs s (.andAbs a) = [] := rfl
@[simp] theorem storedAddrs_andAbsx (s : State) (a : Addr) : storedAddrs s (.andAbsx a) = [] := rfl
@[simp] theorem storedAddrs_andAbsy (s : State) (a : Addr) : storedAddrs s (.andAbsy a) = [] := rfl
@[simp] theorem storedAddrs_andIndx (s : State) (z : Byte) : storedAddrs s (.andIndx z) = [] := rfl
@[simp] theorem storedAddrs_andIndy (s : State) (z : Byte) : storedAddrs s (.andIndy z) = [] := rfl
@[simp] theorem storedAddrs_oraImm (s : State) (v : Byte) : storedAddrs s (.oraImm v) = [] := rfl
@[simp] theorem storedAddrs_oraZp (s : State) (z : Byte) : storedAddrs s (.oraZp z) = [] := rfl
@[simp] theorem storedAddrs_oraZpx (s : State) (z : Byte) : storedAddrs s (.oraZpx z) = [] := rfl
@[simp] theorem storedAddrs_oraAbs (s : State) (a : Addr) : storedAddrs s (.oraAbs a) = [] := rfl
@[simp] theorem storedAddrs_oraAbsx (s : State) (a : Addr) : storedAddrs s (.oraAbsx a) = [] := rfl
@[simp] theorem storedAddrs_oraAbsy (s : State) (a : Addr) : storedAddrs s (.oraAbsy a) = [] := rfl
@[simp] theorem storedAddrs_oraIndx (s : State) (z : Byte) : storedAddrs s (.oraIndx z) = [] := rfl
@[simp] theorem storedAddrs_oraIndy (s : State) (z : Byte) : storedAddrs s (.oraIndy z) = [] := rfl
@[simp] theorem storedAddrs_eorImm (s : State) (v : Byte) : storedAddrs s (.eorImm v) = [] := rfl
@[simp] theorem storedAddrs_eorZp (s : State) (z : Byte) : storedAddrs s (.eorZp z) = [] := rfl
@[simp] theorem storedAddrs_eorZpx (s : State) (z : Byte) : storedAddrs s (.eorZpx z) = [] := rfl
@[simp] theorem storedAddrs_eorAbs (s : State) (a : Addr) : storedAddrs s (.eorAbs a) = [] := rfl
@[simp] theorem storedAddrs_eorAbsx (s : State) (a : Addr) : storedAddrs s (.eorAbsx a) = [] := rfl
@[simp] theorem storedAddrs_eorAbsy (s : State) (a : Addr) : storedAddrs s (.eorAbsy a) = [] := rfl
@[simp] theorem storedAddrs_eorIndx (s : State) (z : Byte) : storedAddrs s (.eorIndx z) = [] := rfl
@[simp] theorem storedAddrs_eorIndy (s : State) (z : Byte) : storedAddrs s (.eorIndy z) = [] := rfl
@[simp] theorem storedAddrs_bitZp (s : State) (z : Byte) : storedAddrs s (.bitZp z) = [] := rfl
@[simp] theorem storedAddrs_bitAbs (s : State) (a : Addr) : storedAddrs s (.bitAbs a) = [] := rfl
@[simp] theorem storedAddrs_adcImm (s : State) (v : Byte) : storedAddrs s (.adcImm v) = [] := rfl
@[simp] theorem storedAddrs_adcZp (s : State) (z : Byte) : storedAddrs s (.adcZp z) = [] := rfl
@[simp] theorem storedAddrs_adcZpx (s : State) (z : Byte) : storedAddrs s (.adcZpx z) = [] := rfl
@[simp] theorem storedAddrs_adcAbs (s : State) (a : Addr) : storedAddrs s (.adcAbs a) = [] := rfl
@[simp] theorem storedAddrs_adcAbsx (s : State) (a : Addr) : storedAddrs s (.adcAbsx a) = [] := rfl
@[simp] theorem storedAddrs_adcAbsy (s : State) (a : Addr) : storedAddrs s (.adcAbsy a) = [] := rfl
@[simp] theorem storedAddrs_adcIndx (s : State) (z : Byte) : storedAddrs s (.adcIndx z) = [] := rfl
@[simp] theorem storedAddrs_adcIndy (s : State) (z : Byte) : storedAddrs s (.adcIndy z) = [] := rfl
@[simp] theorem storedAddrs_sbcImm (s : State) (v : Byte) : storedAddrs s (.sbcImm v) = [] := rfl
@[simp] theorem storedAddrs_sbcZp (s : State) (z : Byte) : storedAddrs s (.sbcZp z) = [] := rfl
@[simp] theorem storedAddrs_sbcZpx (s : State) (z : Byte) : storedAddrs s (.sbcZpx z) = [] := rfl
@[simp] theorem storedAddrs_sbcAbs (s : State) (a : Addr) : storedAddrs s (.sbcAbs a) = [] := rfl
@[simp] theorem storedAddrs_sbcAbsx (s : State) (a : Addr) : storedAddrs s (.sbcAbsx a) = [] := rfl
@[simp] theorem storedAddrs_sbcAbsy (s : State) (a : Addr) : storedAddrs s (.sbcAbsy a) = [] := rfl
@[simp] theorem storedAddrs_sbcIndx (s : State) (z : Byte) : storedAddrs s (.sbcIndx z) = [] := rfl
@[simp] theorem storedAddrs_sbcIndy (s : State) (z : Byte) : storedAddrs s (.sbcIndy z) = [] := rfl
@[simp] theorem storedAddrs_cmpImm (s : State) (v : Byte) : storedAddrs s (.cmpImm v) = [] := rfl
@[simp] theorem storedAddrs_cmpZp (s : State) (z : Byte) : storedAddrs s (.cmpZp z) = [] := rfl
@[simp] theorem storedAddrs_cmpZpx (s : State) (z : Byte) : storedAddrs s (.cmpZpx z) = [] := rfl
@[simp] theorem storedAddrs_cmpAbs (s : State) (a : Addr) : storedAddrs s (.cmpAbs a) = [] := rfl
@[simp] theorem storedAddrs_cmpAbsx (s : State) (a : Addr) : storedAddrs s (.cmpAbsx a) = [] := rfl
@[simp] theorem storedAddrs_cmpAbsy (s : State) (a : Addr) : storedAddrs s (.cmpAbsy a) = [] := rfl
@[simp] theorem storedAddrs_cmpIndx (s : State) (z : Byte) : storedAddrs s (.cmpIndx z) = [] := rfl
@[simp] theorem storedAddrs_cmpIndy (s : State) (z : Byte) : storedAddrs s (.cmpIndy z) = [] := rfl
@[simp] theorem storedAddrs_cpxImm (s : State) (v : Byte) : storedAddrs s (.cpxImm v) = [] := rfl
@[simp] theorem storedAddrs_cpxZp (s : State) (z : Byte) : storedAddrs s (.cpxZp z) = [] := rfl
@[simp] theorem storedAddrs_cpxAbs (s : State) (a : Addr) : storedAddrs s (.cpxAbs a) = [] := rfl
@[simp] theorem storedAddrs_cpyImm (s : State) (v : Byte) : storedAddrs s (.cpyImm v) = [] := rfl
@[simp] theorem storedAddrs_cpyZp (s : State) (z : Byte) : storedAddrs s (.cpyZp z) = [] := rfl
@[simp] theorem storedAddrs_cpyAbs (s : State) (a : Addr) : storedAddrs s (.cpyAbs a) = [] := rfl
@[simp] theorem storedAddrs_incZp (s : State) (z : Byte) : storedAddrs s (.incZp z) =
    [((Operand.zp z).resolve s).ea] := rfl
@[simp] theorem storedAddrs_incZpx (s : State) (z : Byte) : storedAddrs s (.incZpx z) =
    [((Operand.zpx z).resolve s).ea] := rfl
@[simp] theorem storedAddrs_incAbs (s : State) (a : Addr) : storedAddrs s (.incAbs a) =
    [((Operand.abs a).resolve s).ea] := rfl
@[simp] theorem storedAddrs_incAbsx (s : State) (a : Addr) : storedAddrs s (.incAbsx a) =
    [((Operand.absx a).resolve s).ea] := rfl
@[simp] theorem storedAddrs_decZp (s : State) (z : Byte) : storedAddrs s (.decZp z) =
    [((Operand.zp z).resolve s).ea] := rfl
@[simp] theorem storedAddrs_decZpx (s : State) (z : Byte) : storedAddrs s (.decZpx z) =
    [((Operand.zpx z).resolve s).ea] := rfl
@[simp] theorem storedAddrs_decAbs (s : State) (a : Addr) : storedAddrs s (.decAbs a) =
    [((Operand.abs a).resolve s).ea] := rfl
@[simp] theorem storedAddrs_decAbsx (s : State) (a : Addr) : storedAddrs s (.decAbsx a) =
    [((Operand.absx a).resolve s).ea] := rfl
@[simp] theorem storedAddrs_inx (s : State) : storedAddrs s .inx = [] := rfl
@[simp] theorem storedAddrs_iny (s : State) : storedAddrs s .iny = [] := rfl
@[simp] theorem storedAddrs_dex (s : State) : storedAddrs s .dex = [] := rfl
@[simp] theorem storedAddrs_dey (s : State) : storedAddrs s .dey = [] := rfl
@[simp] theorem storedAddrs_aslAcc (s : State) : storedAddrs s .aslAcc = [] := rfl
@[simp] theorem storedAddrs_aslZp (s : State) (z : Byte) : storedAddrs s (.aslZp z) =
    [((Operand.zp z).resolve s).ea] := rfl
@[simp] theorem storedAddrs_aslZpx (s : State) (z : Byte) : storedAddrs s (.aslZpx z) =
    [((Operand.zpx z).resolve s).ea] := rfl
@[simp] theorem storedAddrs_aslAbs (s : State) (a : Addr) : storedAddrs s (.aslAbs a) =
    [((Operand.abs a).resolve s).ea] := rfl
@[simp] theorem storedAddrs_aslAbsx (s : State) (a : Addr) : storedAddrs s (.aslAbsx a) =
    [((Operand.absx a).resolve s).ea] := rfl
@[simp] theorem storedAddrs_lsrAcc (s : State) : storedAddrs s .lsrAcc = [] := rfl
@[simp] theorem storedAddrs_lsrZp (s : State) (z : Byte) : storedAddrs s (.lsrZp z) =
    [((Operand.zp z).resolve s).ea] := rfl
@[simp] theorem storedAddrs_lsrZpx (s : State) (z : Byte) : storedAddrs s (.lsrZpx z) =
    [((Operand.zpx z).resolve s).ea] := rfl
@[simp] theorem storedAddrs_lsrAbs (s : State) (a : Addr) : storedAddrs s (.lsrAbs a) =
    [((Operand.abs a).resolve s).ea] := rfl
@[simp] theorem storedAddrs_lsrAbsx (s : State) (a : Addr) : storedAddrs s (.lsrAbsx a) =
    [((Operand.absx a).resolve s).ea] := rfl
@[simp] theorem storedAddrs_rolAcc (s : State) : storedAddrs s .rolAcc = [] := rfl
@[simp] theorem storedAddrs_rolZp (s : State) (z : Byte) : storedAddrs s (.rolZp z) =
    [((Operand.zp z).resolve s).ea] := rfl
@[simp] theorem storedAddrs_rolZpx (s : State) (z : Byte) : storedAddrs s (.rolZpx z) =
    [((Operand.zpx z).resolve s).ea] := rfl
@[simp] theorem storedAddrs_rolAbs (s : State) (a : Addr) : storedAddrs s (.rolAbs a) =
    [((Operand.abs a).resolve s).ea] := rfl
@[simp] theorem storedAddrs_rolAbsx (s : State) (a : Addr) : storedAddrs s (.rolAbsx a) =
    [((Operand.absx a).resolve s).ea] := rfl
@[simp] theorem storedAddrs_rorAcc (s : State) : storedAddrs s .rorAcc = [] := rfl
@[simp] theorem storedAddrs_rorZp (s : State) (z : Byte) : storedAddrs s (.rorZp z) =
    [((Operand.zp z).resolve s).ea] := rfl
@[simp] theorem storedAddrs_rorZpx (s : State) (z : Byte) : storedAddrs s (.rorZpx z) =
    [((Operand.zpx z).resolve s).ea] := rfl
@[simp] theorem storedAddrs_rorAbs (s : State) (a : Addr) : storedAddrs s (.rorAbs a) =
    [((Operand.abs a).resolve s).ea] := rfl
@[simp] theorem storedAddrs_rorAbsx (s : State) (a : Addr) : storedAddrs s (.rorAbsx a) =
    [((Operand.absx a).resolve s).ea] := rfl
@[simp] theorem storedAddrs_bcc (s : State) (d : Byte) : storedAddrs s (.bcc d) = [] := rfl
@[simp] theorem storedAddrs_bcs (s : State) (d : Byte) : storedAddrs s (.bcs d) = [] := rfl
@[simp] theorem storedAddrs_beq (s : State) (d : Byte) : storedAddrs s (.beq d) = [] := rfl
@[simp] theorem storedAddrs_bne (s : State) (d : Byte) : storedAddrs s (.bne d) = [] := rfl
@[simp] theorem storedAddrs_bmi (s : State) (d : Byte) : storedAddrs s (.bmi d) = [] := rfl
@[simp] theorem storedAddrs_bpl (s : State) (d : Byte) : storedAddrs s (.bpl d) = [] := rfl
@[simp] theorem storedAddrs_bvc (s : State) (d : Byte) : storedAddrs s (.bvc d) = [] := rfl
@[simp] theorem storedAddrs_bvs (s : State) (d : Byte) : storedAddrs s (.bvs d) = [] := rfl
@[simp] theorem storedAddrs_pha (s : State) : storedAddrs s .pha = [stackAddr s.sp] := rfl
@[simp] theorem storedAddrs_php (s : State) : storedAddrs s .php = [stackAddr s.sp] := rfl
@[simp] theorem storedAddrs_pla (s : State) : storedAddrs s .pla = [] := rfl
@[simp] theorem storedAddrs_plp (s : State) : storedAddrs s .plp = [] := rfl
@[simp] theorem storedAddrs_tax (s : State) : storedAddrs s .tax = [] := rfl
@[simp] theorem storedAddrs_tay (s : State) : storedAddrs s .tay = [] := rfl
@[simp] theorem storedAddrs_txa (s : State) : storedAddrs s .txa = [] := rfl
@[simp] theorem storedAddrs_tya (s : State) : storedAddrs s .tya = [] := rfl
@[simp] theorem storedAddrs_tsx (s : State) : storedAddrs s .tsx = [] := rfl
@[simp] theorem storedAddrs_txs (s : State) : storedAddrs s .txs = [] := rfl
@[simp] theorem storedAddrs_jmpAbs (s : State) (a : Addr) : storedAddrs s (.jmpAbs a) = [] := rfl
@[simp] theorem storedAddrs_jmpInd (s : State) (a : Addr) : storedAddrs s (.jmpInd a) = [] := rfl
@[simp] theorem storedAddrs_jsr (s : State) (a : Addr) : storedAddrs s (.jsr a) =
    [stackAddr s.sp, stackAddr (s.sp - 1)] := rfl
@[simp] theorem storedAddrs_rts (s : State) : storedAddrs s .rts = [] := rfl
@[simp] theorem storedAddrs_brk (s : State) : storedAddrs s .brk =
    [stackAddr s.sp, stackAddr (s.sp - 1), stackAddr (s.sp - 1 - 1)] := rfl
@[simp] theorem storedAddrs_rti (s : State) : storedAddrs s .rti = [] := rfl
@[simp] theorem storedAddrs_clc (s : State) : storedAddrs s .clc = [] := rfl
@[simp] theorem storedAddrs_sec (s : State) : storedAddrs s .sec = [] := rfl
@[simp] theorem storedAddrs_cli (s : State) : storedAddrs s .cli = [] := rfl
@[simp] theorem storedAddrs_sei (s : State) : storedAddrs s .sei = [] := rfl
@[simp] theorem storedAddrs_cld (s : State) : storedAddrs s .cld = [] := rfl
@[simp] theorem storedAddrs_sed (s : State) : storedAddrs s .sed = [] := rfl
@[simp] theorem storedAddrs_clv (s : State) : storedAddrs s .clv = [] := rfl
@[simp] theorem storedAddrs_nop (s : State) : storedAddrs s .nop = [] := rfl

end Sys2Proof.Machine
end

