-- ==== Sys2Proof/Laws/Decode.lean ====
section
/-!
SUPPORT. The lookup over the table's parts is the lookup over the whole table.
-/

namespace Sys2Proof

theorem findRow_append (t u : List Row) (op : Byte) :
    findRow (t ++ u) op = (findRow t op).orElse fun _ => findRow u op := by
  induction t with
  | nil => rfl
  | cons r rest ih =>
    by_cases h : (r.op == op) = true
    · simp [findRow, h]
    · simp [findRow, h, ih]

theorem findInParts_eq (parts : List (List Row)) (op : Byte) :
    findInParts parts op = findRow parts.flatten op := by
  induction parts with
  | nil => rfl
  | cons t rest ih =>
    rw [List.flatten_cons, findRow_append, findInParts, ih]
    cases findRow t op <;> rfl

/-- The handler lookup reads the complete opcode list (R103). -/
theorem lookupRow_eq (op : Byte) : lookupRow op = findRow opcodeTable op := findInParts_eq _ _

/-- A row found for a byte is a row of the list with that byte. -/
theorem findRow_some {t : List Row} {op : Byte} {r : Row} (h : findRow t op = some r) : r ∈ t ∧ r.op = op := by
  induction t with
  | nil => simp [findRow] at h
  | cons q rest ih =>
    by_cases hq : (q.op == op) = true
    · simp only [findRow, hq, if_true, Option.some.injEq] at h
      subst h
      exact ⟨by simp, by simpa using hq⟩
    · simp only [findRow, hq] at h
      exact ⟨List.mem_cons_of_mem _ (ih h).1, (ih h).2⟩

/-- No row is found for a byte exactly when no row of the list has it. -/
theorem findRow_none {t : List Row} {op : Byte} : findRow t op = none ↔ ∀ r ∈ t, r.op ≠ op := by
  induction t with
  | nil => simp [findRow]
  | cons q rest ih =>
    by_cases hq : q.op = op
    · simp [findRow, hq]
    · simp [findRow, hq, ih]

theorem joinBytes_toNat (hi lo : Byte) : (joinBytes hi lo).toNat = hi.toNat * 256 + lo.toNat := by
  simp only [joinBytes, BitVec.toNat_ofNat]
  omega

theorem lowByte_toNat (v : Addr) : (lowByte v).toNat = v.toNat % 256 := by simp [lowByte]

theorem highByte_toNat (v : Addr) : (highByte v).toNat = v.toNat / 256 := by
  simp only [highByte, BitVec.toNat_ofNat]
  omega

/-- Joining the two bytes of a word gives the word (R57). -/
@[simp] theorem joinBytes_high_low (v : Addr) : joinBytes (highByte v) (lowByte v) = v := by
  apply BitVec.eq_of_toNat_eq
  rw [joinBytes_toNat, lowByte_toNat, highByte_toNat]
  omega

@[simp] theorem lowByte_joinBytes (hi lo : Byte) : lowByte (joinBytes hi lo) = lo := by
  apply BitVec.eq_of_toNat_eq
  rw [lowByte_toNat, joinBytes_toNat]
  omega

@[simp] theorem highByte_joinBytes (hi lo : Byte) : highByte (joinBytes hi lo) = hi := by
  apply BitVec.eq_of_toNat_eq
  rw [highByte_toNat, joinBytes_toNat]
  omega

end Sys2Proof
end

