-- ==== Sys2Proof/Laws/State.lean ====
section
/-!
SUPPORT. One lemma per field and per named update of the state, so that no proof unfolds an update; and each access
helper rewritten to the values it reads and the calls it notes.
-/

namespace Sys2Proof.Machine

variable (s : State)

/-! ### `note` -/

@[simp] theorem State.note_a (acc : Access) : (s.note acc).a = s.a := rfl
@[simp] theorem State.note_x (acc : Access) : (s.note acc).x = s.x := rfl
@[simp] theorem State.note_y (acc : Access) : (s.note acc).y = s.y := rfl
@[simp] theorem State.note_sp (acc : Access) : (s.note acc).sp = s.sp := rfl
@[simp] theorem State.note_p (acc : Access) : (s.note acc).p = s.p := rfl
@[simp] theorem State.note_pc (acc : Access) : (s.note acc).pc = s.pc := rfl
@[simp] theorem State.note_pendingReset (acc : Access) : (s.note acc).pendingReset = s.pendingReset := rfl
@[simp] theorem State.note_pendingNmi (acc : Access) : (s.note acc).pendingNmi = s.pendingNmi := rfl
@[simp] theorem State.note_pendingIrq (acc : Access) : (s.note acc).pendingIrq = s.pendingIrq := rfl
@[simp] theorem State.note_ready (acc : Access) : (s.note acc).ready = s.ready := rfl
@[simp] theorem State.note_mem (acc : Access) : (s.note acc).mem = s.mem := rfl
@[simp] theorem State.note_params (acc : Access) : (s.note acc).params = s.params := rfl
@[simp] theorem State.note_report (acc : Access) : (s.note acc).report = s.report := rfl
@[simp] theorem State.note_bus (acc : Access) : (s.note acc).bus = s.bus ++ [acc] := rfl

/-! ### `setP` -/

@[simp] theorem State.setP_a (v : Byte) : (s.setP v).a = s.a := rfl
@[simp] theorem State.setP_x (v : Byte) : (s.setP v).x = s.x := rfl
@[simp] theorem State.setP_y (v : Byte) : (s.setP v).y = s.y := rfl
@[simp] theorem State.setP_sp (v : Byte) : (s.setP v).sp = s.sp := rfl
@[simp] theorem State.setP_p (v : Byte) : (s.setP v).p = v := rfl
@[simp] theorem State.setP_pc (v : Byte) : (s.setP v).pc = s.pc := rfl
@[simp] theorem State.setP_pendingReset (v : Byte) : (s.setP v).pendingReset = s.pendingReset := rfl
@[simp] theorem State.setP_pendingNmi (v : Byte) : (s.setP v).pendingNmi = s.pendingNmi := rfl
@[simp] theorem State.setP_pendingIrq (v : Byte) : (s.setP v).pendingIrq = s.pendingIrq := rfl
@[simp] theorem State.setP_ready (v : Byte) : (s.setP v).ready = s.ready := rfl
@[simp] theorem State.setP_mem (v : Byte) : (s.setP v).mem = s.mem := rfl
@[simp] theorem State.setP_params (v : Byte) : (s.setP v).params = s.params := rfl
@[simp] theorem State.setP_report (v : Byte) : (s.setP v).report = s.report := rfl
@[simp] theorem State.setP_bus (v : Byte) : (s.setP v).bus = s.bus := rfl

/-! ### `withNZ` -/

@[simp] theorem State.withNZ_a (v : Byte) : (s.withNZ v).a = s.a := rfl
@[simp] theorem State.withNZ_x (v : Byte) : (s.withNZ v).x = s.x := rfl
@[simp] theorem State.withNZ_y (v : Byte) : (s.withNZ v).y = s.y := rfl
@[simp] theorem State.withNZ_sp (v : Byte) : (s.withNZ v).sp = s.sp := rfl
@[simp] theorem State.withNZ_p (v : Byte) : (s.withNZ v).p = Sys2Proof.Machine.setNZ s.p v := rfl
@[simp] theorem State.withNZ_pc (v : Byte) : (s.withNZ v).pc = s.pc := rfl
@[simp] theorem State.withNZ_pendingReset (v : Byte) : (s.withNZ v).pendingReset = s.pendingReset := rfl
@[simp] theorem State.withNZ_pendingNmi (v : Byte) : (s.withNZ v).pendingNmi = s.pendingNmi := rfl
@[simp] theorem State.withNZ_pendingIrq (v : Byte) : (s.withNZ v).pendingIrq = s.pendingIrq := rfl
@[simp] theorem State.withNZ_ready (v : Byte) : (s.withNZ v).ready = s.ready := rfl
@[simp] theorem State.withNZ_mem (v : Byte) : (s.withNZ v).mem = s.mem := rfl
@[simp] theorem State.withNZ_params (v : Byte) : (s.withNZ v).params = s.params := rfl
@[simp] theorem State.withNZ_report (v : Byte) : (s.withNZ v).report = s.report := rfl
@[simp] theorem State.withNZ_bus (v : Byte) : (s.withNZ v).bus = s.bus := rfl

/-! ### `setPc` -/

@[simp] theorem State.setPc_a (v : Addr) : (s.setPc v).a = s.a := rfl
@[simp] theorem State.setPc_x (v : Addr) : (s.setPc v).x = s.x := rfl
@[simp] theorem State.setPc_y (v : Addr) : (s.setPc v).y = s.y := rfl
@[simp] theorem State.setPc_sp (v : Addr) : (s.setPc v).sp = s.sp := rfl
@[simp] theorem State.setPc_p (v : Addr) : (s.setPc v).p = s.p := rfl
@[simp] theorem State.setPc_pc (v : Addr) : (s.setPc v).pc = v := rfl
@[simp] theorem State.setPc_pendingReset (v : Addr) : (s.setPc v).pendingReset = s.pendingReset := rfl
@[simp] theorem State.setPc_pendingNmi (v : Addr) : (s.setPc v).pendingNmi = s.pendingNmi := rfl
@[simp] theorem State.setPc_pendingIrq (v : Addr) : (s.setPc v).pendingIrq = s.pendingIrq := rfl
@[simp] theorem State.setPc_ready (v : Addr) : (s.setPc v).ready = s.ready := rfl
@[simp] theorem State.setPc_mem (v : Addr) : (s.setPc v).mem = s.mem := rfl
@[simp] theorem State.setPc_params (v : Addr) : (s.setPc v).params = s.params := rfl
@[simp] theorem State.setPc_report (v : Addr) : (s.setPc v).report = s.report := rfl
@[simp] theorem State.setPc_bus (v : Addr) : (s.setPc v).bus = s.bus := rfl

/-! ### `setSp` -/

@[simp] theorem State.setSp_a (v : Byte) : (s.setSp v).a = s.a := rfl
@[simp] theorem State.setSp_x (v : Byte) : (s.setSp v).x = s.x := rfl
@[simp] theorem State.setSp_y (v : Byte) : (s.setSp v).y = s.y := rfl
@[simp] theorem State.setSp_sp (v : Byte) : (s.setSp v).sp = v := rfl
@[simp] theorem State.setSp_p (v : Byte) : (s.setSp v).p = s.p := rfl
@[simp] theorem State.setSp_pc (v : Byte) : (s.setSp v).pc = s.pc := rfl
@[simp] theorem State.setSp_pendingReset (v : Byte) : (s.setSp v).pendingReset = s.pendingReset := rfl
@[simp] theorem State.setSp_pendingNmi (v : Byte) : (s.setSp v).pendingNmi = s.pendingNmi := rfl
@[simp] theorem State.setSp_pendingIrq (v : Byte) : (s.setSp v).pendingIrq = s.pendingIrq := rfl
@[simp] theorem State.setSp_ready (v : Byte) : (s.setSp v).ready = s.ready := rfl
@[simp] theorem State.setSp_mem (v : Byte) : (s.setSp v).mem = s.mem := rfl
@[simp] theorem State.setSp_params (v : Byte) : (s.setSp v).params = s.params := rfl
@[simp] theorem State.setSp_report (v : Byte) : (s.setSp v).report = s.report := rfl
@[simp] theorem State.setSp_bus (v : Byte) : (s.setSp v).bus = s.bus := rfl

/-! ### `write8` -/

@[simp] theorem State.write8_a (addr : Addr) (v : Byte) : (s.write8 addr v).a = s.a := rfl
@[simp] theorem State.write8_x (addr : Addr) (v : Byte) : (s.write8 addr v).x = s.x := rfl
@[simp] theorem State.write8_y (addr : Addr) (v : Byte) : (s.write8 addr v).y = s.y := rfl
@[simp] theorem State.write8_sp (addr : Addr) (v : Byte) : (s.write8 addr v).sp = s.sp := rfl
@[simp] theorem State.write8_p (addr : Addr) (v : Byte) : (s.write8 addr v).p = s.p := rfl
@[simp] theorem State.write8_pc (addr : Addr) (v : Byte) : (s.write8 addr v).pc = s.pc := rfl
@[simp] theorem State.write8_pendingReset (addr : Addr) (v : Byte) : (s.write8 addr v).pendingReset = s.pendingReset := rfl
@[simp] theorem State.write8_pendingNmi (addr : Addr) (v : Byte) : (s.write8 addr v).pendingNmi = s.pendingNmi := rfl
@[simp] theorem State.write8_pendingIrq (addr : Addr) (v : Byte) : (s.write8 addr v).pendingIrq = s.pendingIrq := rfl
@[simp] theorem State.write8_ready (addr : Addr) (v : Byte) : (s.write8 addr v).ready = s.ready := rfl
@[simp] theorem State.write8_mem (addr : Addr) (v : Byte) : (s.write8 addr v).mem = Memory.set s.mem addr.toNat v := rfl
@[simp] theorem State.write8_params (addr : Addr) (v : Byte) : (s.write8 addr v).params = s.params := rfl
@[simp] theorem State.write8_report (addr : Addr) (v : Byte) : (s.write8 addr v).report = s.report := rfl
@[simp] theorem State.write8_bus (addr : Addr) (v : Byte) : (s.write8 addr v).bus = s.bus ++ [.write addr v] := rfl

/-! ### `push` -/

@[simp] theorem State.push_a (v : Byte) : (s.push v).a = s.a := rfl
@[simp] theorem State.push_x (v : Byte) : (s.push v).x = s.x := rfl
@[simp] theorem State.push_y (v : Byte) : (s.push v).y = s.y := rfl
@[simp] theorem State.push_sp (v : Byte) : (s.push v).sp = s.sp - 1 := rfl
@[simp] theorem State.push_p (v : Byte) : (s.push v).p = s.p := rfl
@[simp] theorem State.push_pc (v : Byte) : (s.push v).pc = s.pc := rfl
@[simp] theorem State.push_pendingReset (v : Byte) : (s.push v).pendingReset = s.pendingReset := rfl
@[simp] theorem State.push_pendingNmi (v : Byte) : (s.push v).pendingNmi = s.pendingNmi := rfl
@[simp] theorem State.push_pendingIrq (v : Byte) : (s.push v).pendingIrq = s.pendingIrq := rfl
@[simp] theorem State.push_ready (v : Byte) : (s.push v).ready = s.ready := rfl
@[simp] theorem State.push_mem (v : Byte) : (s.push v).mem = Memory.set s.mem (stackAddr s.sp).toNat v := rfl
@[simp] theorem State.push_params (v : Byte) : (s.push v).params = s.params := rfl
@[simp] theorem State.push_report (v : Byte) : (s.push v).report = s.report := rfl
@[simp] theorem State.push_bus (v : Byte) : (s.push v).bus = s.bus ++ [.write (stackAddr s.sp) v] := rfl

/-! ### `beginTick` -/

@[simp] theorem State.beginTick_a : (s.beginTick).a = s.a := rfl
@[simp] theorem State.beginTick_x : (s.beginTick).x = s.x := rfl
@[simp] theorem State.beginTick_y : (s.beginTick).y = s.y := rfl
@[simp] theorem State.beginTick_sp : (s.beginTick).sp = s.sp := rfl
@[simp] theorem State.beginTick_p : (s.beginTick).p = s.p := rfl
@[simp] theorem State.beginTick_pc : (s.beginTick).pc = s.pc := rfl
@[simp] theorem State.beginTick_pendingReset : (s.beginTick).pendingReset = s.pendingReset := rfl
@[simp] theorem State.beginTick_pendingNmi : (s.beginTick).pendingNmi = s.pendingNmi := rfl
@[simp] theorem State.beginTick_pendingIrq : (s.beginTick).pendingIrq = s.pendingIrq := rfl
@[simp] theorem State.beginTick_ready : (s.beginTick).ready = s.ready := rfl
@[simp] theorem State.beginTick_mem : (s.beginTick).mem = s.mem := rfl
@[simp] theorem State.beginTick_params : (s.beginTick).params = s.params := rfl
@[simp] theorem State.beginTick_report : (s.beginTick).report = .idle := rfl
@[simp] theorem State.beginTick_bus : (s.beginTick).bus = [] := rfl

/-! ### `hold` -/

@[simp] theorem State.hold_a : (s.hold).a = s.a := rfl
@[simp] theorem State.hold_x : (s.hold).x = s.x := rfl
@[simp] theorem State.hold_y : (s.hold).y = s.y := rfl
@[simp] theorem State.hold_sp : (s.hold).sp = s.sp := rfl
@[simp] theorem State.hold_p : (s.hold).p = s.p := rfl
@[simp] theorem State.hold_pc : (s.hold).pc = s.pc := rfl
@[simp] theorem State.hold_pendingReset : (s.hold).pendingReset = s.pendingReset := rfl
@[simp] theorem State.hold_pendingNmi : (s.hold).pendingNmi = s.pendingNmi := rfl
@[simp] theorem State.hold_pendingIrq : (s.hold).pendingIrq = s.pendingIrq := rfl
@[simp] theorem State.hold_ready : (s.hold).ready = s.ready := rfl
@[simp] theorem State.hold_mem : (s.hold).mem = s.mem := rfl
@[simp] theorem State.hold_params : (s.hold).params = s.params := rfl
@[simp] theorem State.hold_report : (s.hold).report = .notReady := rfl
@[simp] theorem State.hold_bus : (s.hold).bus = s.bus := rfl

/-! ### `setReg` -/

@[simp] theorem State.setReg_a (r : Reg) (v : Byte) : (s.setReg r v).a = if r = .a then v else s.a := by cases r <;> rfl
@[simp] theorem State.setReg_x (r : Reg) (v : Byte) : (s.setReg r v).x = if r = .x then v else s.x := by cases r <;> rfl
@[simp] theorem State.setReg_y (r : Reg) (v : Byte) : (s.setReg r v).y = if r = .y then v else s.y := by cases r <;> rfl
@[simp] theorem State.setReg_sp (r : Reg) (v : Byte) : (s.setReg r v).sp = s.sp := by cases r <;> rfl
@[simp] theorem State.setReg_p (r : Reg) (v : Byte) : (s.setReg r v).p = s.p := by cases r <;> rfl
@[simp] theorem State.setReg_pc (r : Reg) (v : Byte) : (s.setReg r v).pc = s.pc := by cases r <;> rfl
@[simp] theorem State.setReg_pendingReset (r : Reg) (v : Byte) : (s.setReg r v).pendingReset = s.pendingReset := by cases r <;> rfl
@[simp] theorem State.setReg_pendingNmi (r : Reg) (v : Byte) : (s.setReg r v).pendingNmi = s.pendingNmi := by cases r <;> rfl
@[simp] theorem State.setReg_pendingIrq (r : Reg) (v : Byte) : (s.setReg r v).pendingIrq = s.pendingIrq := by cases r <;> rfl
@[simp] theorem State.setReg_ready (r : Reg) (v : Byte) : (s.setReg r v).ready = s.ready := by cases r <;> rfl
@[simp] theorem State.setReg_mem (r : Reg) (v : Byte) : (s.setReg r v).mem = s.mem := by cases r <;> rfl
@[simp] theorem State.setReg_params (r : Reg) (v : Byte) : (s.setReg r v).params = s.params := by cases r <;> rfl
@[simp] theorem State.setReg_report (r : Reg) (v : Byte) : (s.setReg r v).report = s.report := by cases r <;> rfl
@[simp] theorem State.setReg_bus (r : Reg) (v : Byte) : (s.setReg r v).bus = s.bus := by cases r <;> rfl

/-! ### Bytes of memory after an update -/

@[simp] theorem State.byteAt_note (acc : Access) (b : Addr) : (s.note acc).byteAt b = s.byteAt b := rfl
@[simp] theorem State.byteAt_setP (v : Byte) (b : Addr) : (s.setP v).byteAt b = s.byteAt b := rfl
@[simp] theorem State.byteAt_withNZ (v : Byte) (b : Addr) : (s.withNZ v).byteAt b = s.byteAt b := rfl
@[simp] theorem State.byteAt_setPc (v : Addr) (b : Addr) : (s.setPc v).byteAt b = s.byteAt b := rfl
@[simp] theorem State.byteAt_setSp (v : Byte) (b : Addr) : (s.setSp v).byteAt b = s.byteAt b := rfl
@[simp] theorem State.byteAt_beginTick (b : Addr) : s.beginTick.byteAt b = s.byteAt b := rfl
@[simp] theorem State.byteAt_hold (b : Addr) : s.hold.byteAt b = s.byteAt b := rfl
@[simp] theorem State.byteAt_setReg (r : Reg) (v : Byte) (b : Addr) : (s.setReg r v).byteAt b = s.byteAt b := by
  cases r <;> rfl

/-! ### Access helpers -/

@[simp] theorem State.read8_fst (addr : Addr) : (s.read8 addr).1 = s.byteAt addr := rfl
@[simp] theorem State.read8_snd (addr : Addr) : (s.read8 addr).2 = s.note (.read addr) := rfl
@[simp] theorem State.readPair_fst (lo hi : Addr) :
    (s.readPair lo hi).1 = joinBytes (s.byteAt hi) (s.byteAt lo) := rfl
@[simp] theorem State.readPair_snd (lo hi : Addr) :
    (s.readPair lo hi).2 = (s.note (.read lo)).note (.read hi) := rfl
@[simp] theorem State.read16_fst (addr : Addr) :
    (s.read16 addr).1 = joinBytes (s.byteAt (addr + 1)) (s.byteAt addr) := rfl
@[simp] theorem State.read16_snd (addr : Addr) :
    (s.read16 addr).2 = (s.note (.read addr)).note (.read (addr + 1)) := rfl
@[simp] theorem State.readZp16_fst (p : Byte) :
    (s.readZp16 p).1 = joinBytes (s.byteAt (zpAddr (p + 1))) (s.byteAt (zpAddr p)) := rfl
@[simp] theorem State.readZp16_snd (p : Byte) :
    (s.readZp16 p).2 = (s.note (.read (zpAddr p))).note (.read (zpAddr (p + 1))) := rfl
@[simp] theorem State.fetch8_fst : s.fetch8.1 = s.byteAt s.pc := rfl
@[simp] theorem State.fetch8_snd : s.fetch8.2 = (s.note (.read s.pc)).setPc (s.pc + 1) := rfl
@[simp] theorem State.pull_fst : s.pull.1 = s.byteAt (stackAddr (s.sp + 1)) := rfl
@[simp] theorem State.pull_snd : s.pull.2 = (s.setSp (s.sp + 1)).note (.read (stackAddr (s.sp + 1))) := rfl

/-- `Push(v)` writes the stack byte SP designates and moves SP down (R60). -/
theorem State.push_eq (v : Byte) : s.push v = (s.write8 (stackAddr s.sp) v).setSp (s.sp - 1) := rfl

/-- `executed` answers the next state with the cycle count returned (R15). -/
theorem executed_eq (n : Nat) : executed n s = .next { s with report := .executed n } := rfl

end Sys2Proof.Machine
end

