-- ==== Sys2Proof/Laws/Flags.lean ====
section
/-!
SUPPORT. What each flag computation makes of P, bit by bit: exactly the flags it names, every other bit kept.
-/

namespace Sys2Proof.Machine

/-- A bit of P after `setFlag`: the named one has the condition's value, any other is kept (R36). -/
@[simp] theorem setFlag_getLsbD (p : Byte) (f : Flag) (c : Bool) (k : Nat) :
    (setFlag p f c).getLsbD k = if k = f.bit then c else p.getLsbD k := by
  rcases Nat.lt_or_ge k 8 with hk | hk
  · cases f <;> cases c <;> interval_cases k <;> simp [setFlag, Flag.mask, Flag.bit]
  · have hne : k ≠ f.bit := by cases f <;> simp [Flag.bit] <;> omega
    simp [BitVec.getLsbD_of_ge _ _ hk, hne]

/-- The same, for a bit written `p[k]`. -/
@[simp] theorem setFlag_getElem (p : Byte) (f : Flag) (c : Bool) (k : Nat) (hk : k < 8) :
    (setFlag p f c)[k] = if k = f.bit then c else p[k] := by
  rw [← BitVec.getLsbD_eq_getElem, setFlag_getLsbD, BitVec.getLsbD_eq_getElem]

/-- Two named flags of P never share a bit (R28). -/
theorem Flag.bit_inj {f g : Flag} (h : f.bit = g.bit) : f = g := by
  cases f <;> cases g <;> simp_all [Flag.bit]

/-- Changing the named flags one after another changes exactly them: a flag written to a byte that differs from `p` in
the flags `ch` only. -/
theorem FlagsBecome.setFlag {p q : Byte} {ch : List (Flag × Bool)} (h : FlagsBecome p q ch) (f : Flag) (c : Bool)
    (hf : ∀ fc ∈ ch, fc.1 ≠ f) : FlagsBecome p (Sys2Proof.Machine.setFlag q f c) ((f, c) :: ch) := by
  refine ⟨fun fc hfc => ?_, fun k hk => ?_⟩
  · rcases List.mem_cons.1 hfc with rfl | hm
    · simp
    · have : fc.1.bit ≠ f.bit := fun e => hf fc hm (Flag.bit_inj e)
      simpa [this] using h.1 fc hm
  · have hkf : k ≠ f.bit := fun e => hk (f, c) (by simp) e.symm
    simpa [hkf] using h.2 k fun fc hm => hk fc (by simp [hm])

/-- The order in which the changes are listed does not matter. -/
theorem FlagsBecome.congr {p q : Byte} {ch ch' : List (Flag × Bool)} (h : FlagsBecome p q ch)
    (e : ∀ fc, fc ∈ ch' ↔ fc ∈ ch) : FlagsBecome p q ch' :=
  ⟨fun fc hm => h.1 fc ((e fc).1 hm), fun k hk => h.2 k fun fc hm => hk fc ((e fc).2 hm)⟩

theorem FlagsBecome.refl (p : Byte) : FlagsBecome p p [] := ⟨by simp, fun _ _ => rfl⟩

theorem setFlag_becomes (p : Byte) (f : Flag) (c : Bool) : FlagsBecome p (setFlag p f c) [(f, c)] :=
  (FlagsBecome.refl p).setFlag f c (by simp)

theorem setNZ_becomes (p v : Byte) : FlagsBecome p (setNZ p v) (nzOf v) := by
  have hz : (v == 0) = decide (v.toNat = 0) := by
    rw [Bool.eq_iff_iff]; simp [BitVec.toNat_eq]
  refine ((setFlag_becomes p .n (v.getLsbD 7)).setFlag .z (v == 0) (by simp)).congr fun fc => ?_
  rw [hz, nzOf]; exact (List.Perm.swap _ _ _).mem_iff

theorem aluFlags_becomes (p : Byte) (o : AluOut) :
    FlagsBecome p (aluFlags p o) [(.z, o.z), (.n, o.n), (.v, o.v), (.c, o.c)] :=
  (((setFlag_becomes p .c o.c).setFlag .v o.v (by simp)).setFlag .n o.n (by simp)).setFlag .z o.z (by simp)

theorem compareFlags_becomes (p r v : Byte) :
    FlagsBecome p (compareFlags p r v)
      [(.n, (r - v).getLsbD 7), (.z, r == v), (.c, decide (v.toNat ≤ r.toNat))] :=
  ((setFlag_becomes p .c _).setFlag .z _ (by simp)).setFlag .n _ (by simp)

theorem bitFlags_becomes (p a v : Byte) :
    FlagsBecome p (bitFlags p a v) [(.v, v.getLsbD 6), (.n, v.getLsbD 7), (.z, (a &&& v) == 0)] :=
  ((setFlag_becomes p .z _).setFlag .n _ (by simp)).setFlag .v _ (by simp)

theorem shiftFlags_becomes (p : Byte) (o : Shifted) :
    FlagsBecome p (shiftFlags p o) ((.c, o.out) :: nzOf o.r) := by
  have h := setNZ_becomes (setFlag p .c o.out) o.r
  have hne : ∀ fc ∈ nzOf o.r, fc.1.bit ≠ 0 := by simp [nzOf, Flag.bit]
  refine ⟨fun fc hm => ?_, fun k hk => ?_⟩
  · rcases List.mem_cons.1 hm with rfl | hm
    · exact (h.2 0 hne).trans (setFlag_getLsbD p .c o.out 0)
    · exact h.1 fc hm
  · have hk0 : k ≠ Flag.bit .c := fun e => hk (.c, o.out) (by simp) e.symm
    exact (h.2 k fun fc hm => hk fc (by simp [hm])).trans (by simp [hk0])

end Sys2Proof.Machine
end

