-- ==== Sys2Proof/Laws/Memory.lean ====
section
/-!
SUPPORT. Memory: reading after writing, and that every operation keeps the canonical form.
-/

namespace Sys2Proof.Machine

theorem Memory.get_erase (m : Memory) (k j : Nat) :
    Memory.get (Memory.erase m k) j = if j = k then unlistedByte else Memory.get m j := by
  induction m with
  | nil => simp [Memory.erase, Memory.get]
  | cons c rest ih =>
    obtain ⟨i, v⟩ := c
    by_cases hik : i = k
    · subst hik
      by_cases hji : j = i <;> simp_all [Memory.erase, Memory.get, eq_comm]
    · by_cases hij : i = j
      · subst hij
        simp [Memory.erase, Memory.get, hik]
      · simp [Memory.erase, Memory.get, hik, hij, ih]

theorem Memory.get_insert_erased (m : Memory) (k : Nat) (v : Byte) (j : Nat) (hm : ∀ c ∈ m, c.1 ≠ k) :
    Memory.get (Memory.insert m k v) j = if j = k then v else Memory.get m j := by
  induction m with
  | nil => by_cases h : k = j <;> simp [Memory.insert, Memory.get, h, eq_comm]
  | cons c rest ih =>
    obtain ⟨i, w⟩ := c
    have hi : i ≠ k := hm (i, w) (by simp)
    have ih := ih fun c hc => hm c (by simp [hc])
    by_cases hki : k < i
    · rcases eq_or_ne j k with rfl | hjk
      · simp [Memory.insert, Memory.get, hki]
      · simp [Memory.insert, Memory.get, hki, hjk, hjk.symm]
    · by_cases hij : i = j
      · subst hij
        simp [Memory.insert, Memory.get, hki, hi]
      · simp [Memory.insert, Memory.get, hki, hij, ih]

theorem Memory.erase_absent (m : Memory) (k : Nat) : ∀ c ∈ Memory.erase m k, c.1 ≠ k := by
  induction m with
  | nil => simp [Memory.erase]
  | cons c rest ih =>
    obtain ⟨i, v⟩ := c
    by_cases hik : i = k
    · simpa [Memory.erase, hik] using ih
    · intro c hc
      simp only [Memory.erase, hik, if_false, List.mem_cons] at hc
      rcases hc with rfl | hc
      · exact hik
      · exact ih c hc

/-- A write replaces the byte at its address and no other (R52). -/
theorem Memory.get_set (m : Memory) (k : Nat) (v : Byte) (j : Nat) :
    Memory.get (Memory.set m k v) j = if j = k then v else Memory.get m j := by
  unfold Memory.set
  split
  · next h => rw [Memory.get_erase, h]
  · rw [Memory.get_insert_erased _ _ _ _ (Memory.erase_absent m k), Memory.get_erase]
    by_cases hj : j = k <;> simp [hj]

/-- A byte of memory after `write8`. -/
@[simp] theorem State.byteAt_write8 (s : State) (addr : Addr) (v : Byte) (b : Addr) :
    (s.write8 addr v).byteAt b = if b = addr then v else s.byteAt b := by
  simp only [State.byteAt, State.write8_mem, Memory.get_set, BitVec.toNat_inj]

/-! ### The canonical form -/

theorem Memory.wfFrom_mono {lo lo' : Nat} (h : lo' ≤ lo) {m : Memory} (hm : Memory.wfFrom lo m = true) :
    Memory.wfFrom lo' m = true := by
  cases m with
  | nil => rfl
  | cons c rest =>
    simp only [Memory.wfFrom, Bool.and_eq_true, decide_eq_true_eq] at hm ⊢
    exact ⟨⟨⟨by omega, hm.1.1.2⟩, hm.1.2⟩, hm.2⟩

theorem Memory.wfFrom_erase {lo : Nat} {m : Memory} (k : Nat) (hm : Memory.wfFrom lo m = true) :
    Memory.wfFrom lo (Memory.erase m k) = true := by
  induction m generalizing lo with
  | nil => rfl
  | cons c rest ih =>
    obtain ⟨i, v⟩ := c
    simp only [Memory.wfFrom, Bool.and_eq_true, decide_eq_true_eq] at hm
    by_cases hik : i = k
    · simpa [Memory.erase, hik] using Memory.wfFrom_mono (by omega) (ih hm.2)
    · simp [Memory.erase, hik, Memory.wfFrom, hm.1.1.1, hm.1.1.2, hm.1.2, ih hm.2]

theorem Memory.wfFrom_insert {lo : Nat} {m : Memory} (k : Nat) (v : Byte) (hlo : lo ≤ k) (hk : k < 65536)
    (hv : v ≠ unlistedByte) (habs : ∀ c ∈ m, c.1 ≠ k) (hm : Memory.wfFrom lo m = true) :
    Memory.wfFrom lo (Memory.insert m k v) = true := by
  induction m generalizing lo with
  | nil => simp [Memory.insert, Memory.wfFrom, hlo, hk, hv]
  | cons c rest ih =>
    obtain ⟨i, w⟩ := c
    have hi : i ≠ k := habs (i, w) (by simp)
    simp only [Memory.wfFrom, Bool.and_eq_true, decide_eq_true_eq] at hm
    by_cases hki : k < i
    · simp [Memory.insert, hki, Memory.wfFrom, hlo, hk, hv, hm.1.1.2, hm.1.2, hm.2, Nat.succ_le_of_lt hki]
    · have := ih (lo := i + 1) (by omega) (fun c hc => habs c (by simp [hc])) hm.2
      simp [Memory.insert, hki, Memory.wfFrom, hm.1.1.1, hm.1.1.2, hm.1.2, this]

/-- A write keeps the canonical form. -/
theorem Memory.wf_set {m : Memory} (k : Nat) (v : Byte) (hk : k < 65536) (hm : Memory.wf m = true) :
    Memory.wf (Memory.set m k v) = true := by
  unfold Memory.set Memory.wf
  split
  · exact Memory.wfFrom_erase k hm
  · next hv => exact Memory.wfFrom_insert k v (by omega) hk hv (Memory.erase_absent m k) (Memory.wfFrom_erase k hm)

/-- Storing bytes one after another keeps the canonical form. -/
theorem Memory.wf_place {m : Memory} (addr : Addr) (bytes : List Byte) (hm : Memory.wf m = true) :
    Memory.wf (Memory.place m addr bytes) = true := by
  induction bytes generalizing m addr with
  | nil => exact hm
  | cons b rest ih => exact ih _ (Memory.wf_set _ _ addr.isLt hm)

/-- `write8` keeps the canonical form. -/
theorem State.wf_write8 {s : State} (addr : Addr) (v : Byte) (h : Memory.wf s.mem = true) :
    Memory.wf (s.write8 addr v).mem = true := Memory.wf_set _ _ addr.isLt h

/-- A push keeps the canonical form. -/
theorem State.wf_push {s : State} (v : Byte) (h : Memory.wf s.mem = true) : Memory.wf (s.push v).mem = true :=
  State.wf_write8 _ _ h

/-- Every host action keeps the canonical form. -/
theorem State.wf_host {s : State} (act : HostAction) (h : Memory.wf s.mem = true) :
    Memory.wf (s.host act).2.mem = true := by
  cases act with
  | load addr bytes => exact Memory.wf_place addr bytes h
  | write8 addr v => exact State.wf_write8 addr v h
  | write16 addr v => exact State.wf_write8 _ _ (State.wf_write8 _ _ h)
  | _ => exact h

end Sys2Proof.Machine
end

