-- ==== Sys2Proof/Laws/Operands.lean ====
section
/-!
SUPPORT. What resolving and loading an operand does: the value, and the reads noted; nothing else of the state
changes.
-/

namespace Sys2Proof.Machine

/-- Resolving an operand notes its pointer reads and changes nothing else (R120). -/
theorem Operand.resolve_after (m : Operand) (s : State) :
    (m.resolve s).after = { s with bus := s.bus ++ pointerReads s m } := by
  cases m <;>
    simp [Operand.resolve, pointerReads, indexed, State.note, State.readZp16, State.readPair, State.read8]

/-- Loading an operand gives its value (R134). -/
@[simp] theorem Operand.load_v (m : Operand) (s : State) : (m.load s).v = operandValue s m := by
  cases m <;> simp [Operand.load, operandValue, State.byteAt, Operand.resolve_after]

@[simp] theorem Operand.load_extra (m : Operand) (s : State) : (m.load s).extra = (m.resolve s).extra := by
  cases m <;> rfl

/-- Loading an operand notes its reads and changes nothing else (R134). -/
theorem Operand.load_after (m : Operand) (s : State) :
    (m.load s).after = { s with bus := s.bus ++ operandReads s m } := by
  cases m <;> simp [Operand.load, operandReads, Operand.resolve_after, State.note]

/-- Reading a byte after resolving reads the memory of before. -/
@[simp] theorem Operand.byteAt_resolve_after (m : Operand) (s : State) (b : Addr) :
    (m.resolve s).after.byteAt b = s.byteAt b := by
  simp [Operand.resolve_after, State.byteAt]

/-- The indirect mode notes its two pointer reads and changes nothing else (R131). -/
theorem resolveIndirect_snd (ptr : Addr) (s : State) :
    (resolveIndirect ptr s).2 = { s with bus := (resolveIndirect ptr s).2.bus } := by
  unfold resolveIndirect
  split <;> rfl

end Sys2Proof.Machine
end

