-- ==== Sys2Proof/Laws/Meanings.lean ====
section
/-!
SUPPORT. One lemma per shared operation of the meanings: the next state it answers, in closed form. Proofs about an
instruction cite these and never unfold the operation.
-/

namespace Sys2Proof.Machine

variable (s : State)

/-! ### Loads, stores, logical operations -/

theorem loadReg_eq (r : Reg) (base : Nat) (m : Operand) :
    loadReg r base m s = .next { (s.setReg r (operandValue s m)).withNZ (operandValue s m) with
      bus := s.bus ++ operandReads s m, report := .executed (readCycles base (m.resolve s).extra) } := by
  simp only [loadReg, executed, Operand.load_v, Operand.load_extra, Operand.load_after]
  cases r <;> rfl

theorem storeReg_eq (r : Reg) (base : Nat) (m : Operand) :
    storeReg r base m s = .next { s with
      mem := Memory.set s.mem (m.resolve s).ea.toNat (s.reg r)
      bus := s.bus ++ pointerReads s m ++ [.write (m.resolve s).ea (s.reg r)]
      report := .executed (writeCycles s.params base (m.resolve s).extra) } := by
  simp only [storeReg, executed, Operand.resolve_after]
  rfl

theorem logic_eq (f : Byte → Byte → Byte) (base : Nat) (m : Operand) :
    logic f base m s = .next { s with
      a := f s.a (operandValue s m)
      p := setNZ s.p (f s.a (operandValue s m))
      bus := s.bus ++ operandReads s m
      report := .executed (readCycles base (m.resolve s).extra) } := by
  simp only [logic, executed, Operand.load_v, Operand.load_extra, Operand.load_after]
  rfl

theorem bitTest_eq (base : Nat) (m : Operand) :
    bitTest base m s = .next { s with
      p := bitFlags s.p s.a (operandValue s m)
      bus := s.bus ++ operandReads s m
      report := .executed (readCycles base (m.resolve s).extra) } := by
  simp only [bitTest, executed, Operand.load_v, Operand.load_extra, Operand.load_after]
  rfl

/-! ### Arithmetic -/

/-- The next state ADC and SBC answer once the result and flags are computed. -/
def accumulated (base : Nat) (m : Operand) (s : State) (o : AluOut) : State :=
  { s with
    a := o.r
    p := aluFlags s.p o
    bus := s.bus ++ operandReads s m
    report := .executed (readCycles base (m.resolve s).extra) }

/-- ADC and SBC, all cases at once (R171 to R173). -/
theorem accumulate_eq (binary decimal : Byte → Byte → Bool → AluOut) (base : Nat) (m : Operand) :
    accumulate binary decimal base m s =
      if s.flag .d = true ∧ s.params.decimalMode = .refuse then .refused .decimalMode
      else .next (accumulated base m s
        ((if s.flag .d = true ∧ s.params.decimalMode = .nmosBcd then decimal else binary)
          s.a (operandValue s m) (s.flag .c))) := by
  simp only [accumulate, executed, Operand.load_v, Operand.load_extra, Operand.load_after]
  cases hd : s.flag .d
  · simp [accumulated, State.setReg, State.setP]
  · cases hm : s.params.decimalMode <;> simp [accumulated, State.setReg, State.setP]

theorem compareReg_eq (r : Reg) (base : Nat) (m : Operand) :
    compareReg r base m s = .next { s with
      p := compareFlags s.p (s.reg r) (operandValue s m)
      bus := s.bus ++ operandReads s m
      report := .executed (readCycles base (m.resolve s).extra) } := by
  simp only [compareReg, executed, Operand.load_v, Operand.load_extra, Operand.load_after]
  rfl

/-- A read-modify-write: one read and then one write of the same address (R194). -/
theorem modify_eq (f : Byte → Byte) (base : Nat) (m : Operand) :
    modify f base m s = .next { s with
      mem := Memory.set s.mem (m.resolve s).ea.toNat (f (s.byteAt (m.resolve s).ea))
      p := setNZ s.p (f (s.byteAt (m.resolve s).ea))
      bus := s.bus ++ pointerReads s m ++ [.read (m.resolve s).ea]
        ++ [.write (m.resolve s).ea (f (s.byteAt (m.resolve s).ea))]
      report := .executed (writeCycles s.params base (m.resolve s).extra) } := by
  simp only [modify, executed, State.read8_fst, State.read8_snd, Operand.resolve_after]
  rfl

theorem stepReg_eq (r : Reg) (f : Byte → Byte) (base : Nat) :
    stepReg r f base s = .next { (s.setReg r (f (s.reg r))).withNZ (f (s.reg r)) with report := .executed base } := rfl

/-! ### Shifts, branches, transfers, flags -/

theorem shiftAcc_eq (f : Byte → Bool → Shifted) (base : Nat) :
    shiftAcc f base s = .next { s with
      a := (f s.a (s.flag .c)).r
      p := shiftFlags s.p (f s.a (s.flag .c))
      report := .executed base } := rfl

theorem shiftMem_eq (f : Byte → Bool → Shifted) (base : Nat) (m : Operand) :
    shiftMem f base m s = .next { s with
      mem := Memory.set s.mem (m.resolve s).ea.toNat (f (s.byteAt (m.resolve s).ea) (s.flag .c)).r
      p := shiftFlags s.p (f (s.byteAt (m.resolve s).ea) (s.flag .c))
      bus := s.bus ++ pointerReads s m ++ [.read (m.resolve s).ea]
        ++ [.write (m.resolve s).ea (f (s.byteAt (m.resolve s).ea) (s.flag .c)).r]
      report := .executed (writeCycles s.params base (m.resolve s).extra) } := by
  simp only [shiftMem, executed, State.read8_fst, State.read8_snd, Operand.resolve_after]
  rfl

theorem branch_eq (taken : Bool) (base : Nat) (d : Byte) :
    branch taken base d s = .next { s with
      pc := if taken then relTarget d s else s.pc
      report := .executed (if taken then base + 1 + (pageCross s.pc (relTarget d s)).toNat else base) } := by
  cases taken <;> rfl

theorem transfer_eq (src dst : Reg) (base : Nat) :
    transfer src dst base s = .next { (s.setReg dst (s.reg src)).withNZ (s.reg src) with report := .executed base } := rfl

theorem writeFlag_eq (f : Flag) (c : Bool) (base : Nat) :
    writeFlag f c base s = .next { s with p := setFlag s.p f c, report := .executed base } := rfl

/-! ### Stack and trap -/

theorem State.pushWord_eq (v : Addr) :
    s.pushWord v = { s with
      sp := s.sp - 1 - 1
      mem := Memory.set (Memory.set s.mem (stackAddr s.sp).toNat (highByte v)) (stackAddr (s.sp - 1)).toNat (lowByte v)
      bus := s.bus ++ [.write (stackAddr s.sp) (highByte v)] ++ [.write (stackAddr (s.sp - 1)) (lowByte v)] } := rfl

theorem State.pullWord_fst :
    s.pullWord.1 = joinBytes (s.byteAt (stackAddr (s.sp + 1 + 1))) (s.byteAt (stackAddr (s.sp + 1))) := rfl

theorem State.pullWord_snd :
    s.pullWord.2 = { s with
      sp := s.sp + 1 + 1
      bus := s.bus ++ [.read (stackAddr (s.sp + 1))] ++ [.read (stackAddr (s.sp + 1 + 1))] } := rfl

/-- Taking the trap, from the pushes it makes (R243). -/
theorem State.takeTrap_eq (ret vector : Addr) :
    s.takeTrap ret vector =
      let pushed := (s.pushWord ret).push (s.p ||| 0x30)
      { pushed with
        p := setFlag s.p .i true
        pc := joinBytes (pushed.byteAt (vector + 1)) (pushed.byteAt vector)
        bus := pushed.bus ++ [.read vector] ++ [.read (vector + 1)] } := by
  simp only [State.takeTrap, State.read16_fst, State.read16_snd, State.byteAt_setP]
  simp [State.setPc, State.setP, State.note, State.pushWord]

/-- Returning from the trap (R244). -/
theorem State.returnFromTrap_eq :
    s.returnFromTrap = { s with
      p := s.byteAt (stackAddr (s.sp + 1))
      pc := joinBytes (s.byteAt (stackAddr (s.sp + 1 + 1 + 1))) (s.byteAt (stackAddr (s.sp + 1 + 1)))
      sp := s.sp + 1 + 1 + 1
      bus := s.bus ++ [.read (stackAddr (s.sp + 1))] ++ [.read (stackAddr (s.sp + 1 + 1))]
        ++ [.read (stackAddr (s.sp + 1 + 1 + 1))] } := by
  simp only [State.returnFromTrap, State.pullWord_fst, State.pullWord_snd, State.pull_fst, State.pull_snd,
    State.byteAt_setP, State.byteAt_note, State.byteAt_setSp]
  simp [State.setPc, State.setP, State.note, State.setSp]

/-! ### The instructions that are no case of a family operation -/

theorem execPha_eq :
    execPha s = .next { s with
      sp := s.sp - 1
      mem := Memory.set s.mem (stackAddr s.sp).toNat s.a
      bus := s.bus ++ [.write (stackAddr s.sp) s.a]
      report := .executed 3 } := rfl

theorem execPhp_eq :
    execPhp s = .next { s with
      sp := s.sp - 1
      mem := Memory.set s.mem (stackAddr s.sp).toNat s.p
      bus := s.bus ++ [.write (stackAddr s.sp) s.p]
      report := .executed 3 } := rfl

theorem execPla_eq :
    execPla s = .next { s with
      a := s.byteAt (stackAddr (s.sp + 1))
      p := setNZ s.p (s.byteAt (stackAddr (s.sp + 1)))
      sp := s.sp + 1
      bus := s.bus ++ [.read (stackAddr (s.sp + 1))]
      report := .executed 4 } := rfl

theorem execPlp_eq :
    execPlp s = .next { s with
      p := s.byteAt (stackAddr (s.sp + 1))
      sp := s.sp + 1
      bus := s.bus ++ [.read (stackAddr (s.sp + 1))]
      report := .executed 4 } := rfl

theorem execTsx_eq :
    execTsx s = .next { s with
      x := s.sp
      p := if s.params.tsxSetsNz then setNZ s.p s.sp else s.p
      report := .executed 2 } := by
  unfold execTsx
  cases s.params.tsxSetsNz <;> rfl

theorem execTxs_eq : execTxs s = .next { s with sp := s.x, report := .executed 2 } := rfl

/-- The address of the high byte of an indirect jump's target (R131). -/
def indirectHighAddr (a : Addr) (s : State) : Addr :=
  if s.params.jmpIndPageWrap then joinBytes (highByte a) (lowByte a + 1) else a + 1

theorem execJmpInd_eq (a : Addr) :
    execJmpInd a s = .next { s with
      pc := joinBytes (s.byteAt (indirectHighAddr a s)) (s.byteAt a)
      bus := s.bus ++ [.read a] ++ [.read (indirectHighAddr a s)]
      report := .executed 5 } := by
  unfold execJmpInd resolveIndirect indirectHighAddr
  cases s.params.jmpIndPageWrap <;> rfl

theorem execJsr_eq (a : Addr) :
    execJsr a s = .next { s with
      pc := a
      sp := s.sp - 1 - 1
      mem := Memory.set (Memory.set s.mem (stackAddr s.sp).toNat (highByte (s.pc - 1)))
        (stackAddr (s.sp - 1)).toNat (lowByte (s.pc - 1))
      bus := s.bus ++ [.write (stackAddr s.sp) (highByte (s.pc - 1))]
        ++ [.write (stackAddr (s.sp - 1)) (lowByte (s.pc - 1))]
      report := .executed 6 } := by
  simp only [execJsr, executed, State.pushWord_eq, State.setPc]

theorem execRts_eq :
    execRts s = .next { s with
      pc := joinBytes (s.byteAt (stackAddr (s.sp + 1 + 1))) (s.byteAt (stackAddr (s.sp + 1))) + 1
      sp := s.sp + 1 + 1
      bus := s.bus ++ [.read (stackAddr (s.sp + 1))] ++ [.read (stackAddr (s.sp + 1 + 1))]
      report := .executed 6 } := by
  simp only [execRts, executed, State.pullWord_fst, State.pullWord_snd, State.setPc]

/-- Memory after BRK's three pushes (R243). -/
def trapPushes (s : State) : Memory :=
  Memory.set (Memory.set (Memory.set s.mem (stackAddr s.sp).toNat (highByte (s.pc + 1)))
    (stackAddr (s.sp - 1)).toNat (lowByte (s.pc + 1))) (stackAddr (s.sp - 1 - 1)).toNat (s.p ||| 0x30)

theorem execBrk_eq :
    execBrk s = .next { s with
      pc := joinBytes (Memory.get (trapPushes s) 0xFFFF) (Memory.get (trapPushes s) 0xFFFE)
      sp := s.sp - 1 - 1 - 1
      p := setFlag s.p .i true
      mem := trapPushes s
      bus := s.bus ++ [.write (stackAddr s.sp) (highByte (s.pc + 1))]
        ++ [.write (stackAddr (s.sp - 1)) (lowByte (s.pc + 1))]
        ++ [.write (stackAddr (s.sp - 1 - 1)) (s.p ||| 0x30)] ++ [.read 0xFFFE] ++ [.read 0xFFFF]
      report := .executed 7 } := by
  simp only [execBrk, executed, State.takeTrap_eq, State.pushWord_eq, State.push_eq, State.byteAt]
  rfl

theorem execRti_eq :
    execRti s = .next { s with
      p := s.byteAt (stackAddr (s.sp + 1))
      pc := joinBytes (s.byteAt (stackAddr (s.sp + 1 + 1 + 1))) (s.byteAt (stackAddr (s.sp + 1 + 1)))
      sp := s.sp + 1 + 1 + 1
      bus := s.bus ++ [.read (stackAddr (s.sp + 1))] ++ [.read (stackAddr (s.sp + 1 + 1))]
        ++ [.read (stackAddr (s.sp + 1 + 1 + 1))]
      report := .executed 6 } := by
  simp only [execRti, executed, State.returnFromTrap_eq]

/-- Two stack addresses are equal only for equal stack pointers (R7). -/
theorem stackAddr_inj {u v : Byte} (h : stackAddr u = stackAddr v) : u = v := by
  have h' := BitVec.add_right_inj (0x0100 : Addr) |>.mp h
  have := congrArg BitVec.toNat h'
  rw [BitVec.toNat_setWidth, BitVec.toNat_setWidth, Nat.mod_eq_of_lt (by omega), Nat.mod_eq_of_lt (by omega)] at this
  exact BitVec.eq_of_toNat_eq this

end Sys2Proof.Machine
end

