-- ==== Sys2Proof/Laws/PerInstr.lean ====
section
/-!
SUPPORT. Statements about every instruction, proved constructor by constructor.
-/

/-- An instruction is well-formed, its opcode byte is that of a row of R85, and it is encoded in as many bytes as the
row's mode has (R81, R83). -/
def Sys2Proof.Laws.EncodedRow.Statement (i : Sys2Proof.Instr) : Prop :=
  i.wf = true ∧ ∃ row, Sys2Proof.rowOf i = some row ∧ (Sys2Proof.encode i).length = row.mode.length

namespace Sys2Proof.Laws.EncodedRow

/-- The row found for an opcode byte is the row of an instruction with that byte, so its length can be read off. -/
theorem of_row {i : Instr} (row : Row) (hr : rowOf i = some row)
    (hl : (encode i).length = row.mode.length) : Statement i := ⟨rfl, row, hr, hl⟩

theorem ldaImm (v : Byte) : Statement (.ldaImm v) := of_row _ rfl rfl
theorem ldaZp (z : Byte) : Statement (.ldaZp z) := of_row _ rfl rfl
theorem ldaZpx (z : Byte) : Statement (.ldaZpx z) := of_row _ rfl rfl
theorem ldaAbs (a : Addr) : Statement (.ldaAbs a) := of_row _ rfl rfl
theorem ldaAbsx (a : Addr) : Statement (.ldaAbsx a) := of_row _ rfl rfl
theorem ldaAbsy (a : Addr) : Statement (.ldaAbsy a) := of_row _ rfl rfl
theorem ldaIndx (z : Byte) : Statement (.ldaIndx z) := of_row _ rfl rfl
theorem ldaIndy (z : Byte) : Statement (.ldaIndy z) := of_row _ rfl rfl
theorem ldxImm (v : Byte) : Statement (.ldxImm v) := of_row _ rfl rfl
theorem ldxZp (z : Byte) : Statement (.ldxZp z) := of_row _ rfl rfl
theorem ldxZpy (z : Byte) : Statement (.ldxZpy z) := of_row _ rfl rfl
theorem ldxAbs (a : Addr) : Statement (.ldxAbs a) := of_row _ rfl rfl
theorem ldxAbsy (a : Addr) : Statement (.ldxAbsy a) := of_row _ rfl rfl
theorem ldyImm (v : Byte) : Statement (.ldyImm v) := of_row _ rfl rfl
theorem ldyZp (z : Byte) : Statement (.ldyZp z) := of_row _ rfl rfl
theorem ldyZpx (z : Byte) : Statement (.ldyZpx z) := of_row _ rfl rfl
theorem ldyAbs (a : Addr) : Statement (.ldyAbs a) := of_row _ rfl rfl
theorem ldyAbsx (a : Addr) : Statement (.ldyAbsx a) := of_row _ rfl rfl
theorem staZp (z : Byte) : Statement (.staZp z) := of_row _ rfl rfl
theorem staZpx (z : Byte) : Statement (.staZpx z) := of_row _ rfl rfl
theorem staAbs (a : Addr) : Statement (.staAbs a) := of_row _ rfl rfl
theorem staAbsx (a : Addr) : Statement (.staAbsx a) := of_row _ rfl rfl
theorem staAbsy (a : Addr) : Statement (.staAbsy a) := of_row _ rfl rfl
theorem staIndx (z : Byte) : Statement (.staIndx z) := of_row _ rfl rfl
theorem staIndy (z : Byte) : Statement (.staIndy z) := of_row _ rfl rfl
theorem stxZp (z : Byte) : Statement (.stxZp z) := of_row _ rfl rfl
theorem stxZpy (z : Byte) : Statement (.stxZpy z) := of_row _ rfl rfl
theorem stxAbs (a : Addr) : Statement (.stxAbs a) := of_row _ rfl rfl
theorem styZp (z : Byte) : Statement (.styZp z) := of_row _ rfl rfl
theorem styZpx (z : Byte) : Statement (.styZpx z) := of_row _ rfl rfl
theorem styAbs (a : Addr) : Statement (.styAbs a) := of_row _ rfl rfl
theorem andImm (v : Byte) : Statement (.andImm v) := of_row _ rfl rfl
theorem andZp (z : Byte) : Statement (.andZp z) := of_row _ rfl rfl
theorem andZpx (z : Byte) : Statement (.andZpx z) := of_row _ rfl rfl
theorem andAbs (a : Addr) : Statement (.andAbs a) := of_row _ rfl rfl
theorem andAbsx (a : Addr) : Statement (.andAbsx a) := of_row _ rfl rfl
theorem andAbsy (a : Addr) : Statement (.andAbsy a) := of_row _ rfl rfl
theorem andIndx (z : Byte) : Statement (.andIndx z) := of_row _ rfl rfl
theorem andIndy (z : Byte) : Statement (.andIndy z) := of_row _ rfl rfl
theorem oraImm (v : Byte) : Statement (.oraImm v) := of_row _ rfl rfl
theorem oraZp (z : Byte) : Statement (.oraZp z) := of_row _ rfl rfl
theorem oraZpx (z : Byte) : Statement (.oraZpx z) := of_row _ rfl rfl
theorem oraAbs (a : Addr) : Statement (.oraAbs a) := of_row _ rfl rfl
theorem oraAbsx (a : Addr) : Statement (.oraAbsx a) := of_row _ rfl rfl
theorem oraAbsy (a : Addr) : Statement (.oraAbsy a) := of_row _ rfl rfl
theorem oraIndx (z : Byte) : Statement (.oraIndx z) := of_row _ rfl rfl
theorem oraIndy (z : Byte) : Statement (.oraIndy z) := of_row _ rfl rfl
theorem eorImm (v : Byte) : Statement (.eorImm v) := of_row _ rfl rfl
theorem eorZp (z : Byte) : Statement (.eorZp z) := of_row _ rfl rfl
theorem eorZpx (z : Byte) : Statement (.eorZpx z) := of_row _ rfl rfl
theorem eorAbs (a : Addr) : Statement (.eorAbs a) := of_row _ rfl rfl
theorem eorAbsx (a : Addr) : Statement (.eorAbsx a) := of_row _ rfl rfl
theorem eorAbsy (a : Addr) : Statement (.eorAbsy a) := of_row _ rfl rfl
theorem eorIndx (z : Byte) : Statement (.eorIndx z) := of_row _ rfl rfl
theorem eorIndy (z : Byte) : Statement (.eorIndy z) := of_row _ rfl rfl
theorem bitZp (z : Byte) : Statement (.bitZp z) := of_row _ rfl rfl
theorem bitAbs (a : Addr) : Statement (.bitAbs a) := of_row _ rfl rfl
theorem adcImm (v : Byte) : Statement (.adcImm v) := of_row _ rfl rfl
theorem adcZp (z : Byte) : Statement (.adcZp z) := of_row _ rfl rfl
theorem adcZpx (z : Byte) : Statement (.adcZpx z) := of_row _ rfl rfl
theorem adcAbs (a : Addr) : Statement (.adcAbs a) := of_row _ rfl rfl
theorem adcAbsx (a : Addr) : Statement (.adcAbsx a) := of_row _ rfl rfl
theorem adcAbsy (a : Addr) : Statement (.adcAbsy a) := of_row _ rfl rfl
theorem adcIndx (z : Byte) : Statement (.adcIndx z) := of_row _ rfl rfl
theorem adcIndy (z : Byte) : Statement (.adcIndy z) := of_row _ rfl rfl
theorem sbcImm (v : Byte) : Statement (.sbcImm v) := of_row _ rfl rfl
theorem sbcZp (z : Byte) : Statement (.sbcZp z) := of_row _ rfl rfl
theorem sbcZpx (z : Byte) : Statement (.sbcZpx z) := of_row _ rfl rfl
theorem sbcAbs (a : Addr) : Statement (.sbcAbs a) := of_row _ rfl rfl
theorem sbcAbsx (a : Addr) : Statement (.sbcAbsx a) := of_row _ rfl rfl
theorem sbcAbsy (a : Addr) : Statement (.sbcAbsy a) := of_row _ rfl rfl
theorem sbcIndx (z : Byte) : Statement (.sbcIndx z) := of_row _ rfl rfl
theorem sbcIndy (z : Byte) : Statement (.sbcIndy z) := of_row _ rfl rfl
theorem cmpImm (v : Byte) : Statement (.cmpImm v) := of_row _ rfl rfl
theorem cmpZp (z : Byte) : Statement (.cmpZp z) := of_row _ rfl rfl
theorem cmpZpx (z : Byte) : Statement (.cmpZpx z) := of_row _ rfl rfl
theorem cmpAbs (a : Addr) : Statement (.cmpAbs a) := of_row _ rfl rfl
theorem cmpAbsx (a : Addr) : Statement (.cmpAbsx a) := of_row _ rfl rfl
theorem cmpAbsy (a : Addr) : Statement (.cmpAbsy a) := of_row _ rfl rfl
theorem cmpIndx (z : Byte) : Statement (.cmpIndx z) := of_row _ rfl rfl
theorem cmpIndy (z : Byte) : Statement (.cmpIndy z) := of_row _ rfl rfl
theorem cpxImm (v : Byte) : Statement (.cpxImm v) := of_row _ rfl rfl
theorem cpxZp (z : Byte) : Statement (.cpxZp z) := of_row _ rfl rfl
theorem cpxAbs (a : Addr) : Statement (.cpxAbs a) := of_row _ rfl rfl
theorem cpyImm (v : Byte) : Statement (.cpyImm v) := of_row _ rfl rfl
theorem cpyZp (z : Byte) : Statement (.cpyZp z) := of_row _ rfl rfl
theorem cpyAbs (a : Addr) : Statement (.cpyAbs a) := of_row _ rfl rfl
theorem incZp (z : Byte) : Statement (.incZp z) := of_row _ rfl rfl
theorem incZpx (z : Byte) : Statement (.incZpx z) := of_row _ rfl rfl
theorem incAbs (a : Addr) : Statement (.incAbs a) := of_row _ rfl rfl
theorem incAbsx (a : Addr) : Statement (.incAbsx a) := of_row _ rfl rfl
theorem decZp (z : Byte) : Statement (.decZp z) := of_row _ rfl rfl
theorem decZpx (z : Byte) : Statement (.decZpx z) := of_row _ rfl rfl
theorem decAbs (a : Addr) : Statement (.decAbs a) := of_row _ rfl rfl
theorem decAbsx (a : Addr) : Statement (.decAbsx a) := of_row _ rfl rfl
theorem inx : Statement (.inx) := of_row _ rfl rfl
theorem iny : Statement (.iny) := of_row _ rfl rfl
theorem dex : Statement (.dex) := of_row _ rfl rfl
theorem dey : Statement (.dey) := of_row _ rfl rfl
theorem aslAcc : Statement (.aslAcc) := of_row _ rfl rfl
theorem aslZp (z : Byte) : Statement (.aslZp z) := of_row _ rfl rfl
theorem aslZpx (z : Byte) : Statement (.aslZpx z) := of_row _ rfl rfl
theorem aslAbs (a : Addr) : Statement (.aslAbs a) := of_row _ rfl rfl
theorem aslAbsx (a : Addr) : Statement (.aslAbsx a) := of_row _ rfl rfl
theorem lsrAcc : Statement (.lsrAcc) := of_row _ rfl rfl
theorem lsrZp (z : Byte) : Statement (.lsrZp z) := of_row _ rfl rfl
theorem lsrZpx (z : Byte) : Statement (.lsrZpx z) := of_row _ rfl rfl
theorem lsrAbs (a : Addr) : Statement (.lsrAbs a) := of_row _ rfl rfl
theorem lsrAbsx (a : Addr) : Statement (.lsrAbsx a) := of_row _ rfl rfl
theorem rolAcc : Statement (.rolAcc) := of_row _ rfl rfl
theorem rolZp (z : Byte) : Statement (.rolZp z) := of_row _ rfl rfl
theorem rolZpx (z : Byte) : Statement (.rolZpx z) := of_row _ rfl rfl
theorem rolAbs (a : Addr) : Statement (.rolAbs a) := of_row _ rfl rfl
theorem rolAbsx (a : Addr) : Statement (.rolAbsx a) := of_row _ rfl rfl
theorem rorAcc : Statement (.rorAcc) := of_row _ rfl rfl
theorem rorZp (z : Byte) : Statement (.rorZp z) := of_row _ rfl rfl
theorem rorZpx (z : Byte) : Statement (.rorZpx z) := of_row _ rfl rfl
theorem rorAbs (a : Addr) : Statement (.rorAbs a) := of_row _ rfl rfl
theorem rorAbsx (a : Addr) : Statement (.rorAbsx a) := of_row _ rfl rfl
theorem bcc (d : Byte) : Statement (.bcc d) := of_row _ rfl rfl
theorem bcs (d : Byte) : Statement (.bcs d) := of_row _ rfl rfl
theorem beq (d : Byte) : Statement (.beq d) := of_row _ rfl rfl
theorem bne (d : Byte) : Statement (.bne d) := of_row _ rfl rfl
theorem bmi (d : Byte) : Statement (.bmi d) := of_row _ rfl rfl
theorem bpl (d : Byte) : Statement (.bpl d) := of_row _ rfl rfl
theorem bvc (d : Byte) : Statement (.bvc d) := of_row _ rfl rfl
theorem bvs (d : Byte) : Statement (.bvs d) := of_row _ rfl rfl
theorem pha : Statement (.pha) := of_row _ rfl rfl
theorem php : Statement (.php) := of_row _ rfl rfl
theorem pla : Statement (.pla) := of_row _ rfl rfl
theorem plp : Statement (.plp) := of_row _ rfl rfl
theorem tax : Statement (.tax) := of_row _ rfl rfl
theorem tay : Statement (.tay) := of_row _ rfl rfl
theorem txa : Statement (.txa) := of_row _ rfl rfl
theorem tya : Statement (.tya) := of_row _ rfl rfl
theorem tsx : Statement (.tsx) := of_row _ rfl rfl
theorem txs : Statement (.txs) := of_row _ rfl rfl
theorem jmpAbs (a : Addr) : Statement (.jmpAbs a) := of_row _ rfl rfl
theorem jmpInd (a : Addr) : Statement (.jmpInd a) := of_row _ rfl rfl
theorem jsr (a : Addr) : Statement (.jsr a) := of_row _ rfl rfl
theorem rts : Statement (.rts) := of_row _ rfl rfl
theorem brk : Statement (.brk) := of_row _ rfl rfl
theorem rti : Statement (.rti) := of_row _ rfl rfl
theorem clc : Statement (.clc) := of_row _ rfl rfl
theorem sec : Statement (.sec) := of_row _ rfl rfl
theorem cli : Statement (.cli) := of_row _ rfl rfl
theorem sei : Statement (.sei) := of_row _ rfl rfl
theorem cld : Statement (.cld) := of_row _ rfl rfl
theorem sed : Statement (.sed) := of_row _ rfl rfl
theorem clv : Statement (.clv) := of_row _ rfl rfl
theorem nop : Statement (.nop) := of_row _ rfl rfl

end Sys2Proof.Laws.EncodedRow
end

