-- ==== Sys2Proof/Laws/Run.lean ====
section
/-!
SUPPORT. What a run can answer (R112, R285), and the launch premises (R304).
-/

namespace Sys2Proof.Machine

/-- A clean entry is an entry (R304). -/
theorem CleanEntry.entry {s : State} {start : Addr} (h : CleanEntry s start) : Entry s start := h.1

/-- A held tick ends the run, whatever the stop address. -/
theorem endsRun_of_held {stop : Option Addr} {t : State} (h : t.report = .notReady) : endsRun stop t = true := by
  simp [endsRun, h]

/-- After an executed instruction the run ends exactly at the stop address. -/
theorem endsRun_of_executed {stop : Option Addr} {t : State} {n : Nat} (h : t.report = .executed n) :
    endsRun stop t = decide (stop = some t.pc) := by
  simp [endsRun, h]

/-- No ticks, no change. -/
@[simp] theorem runUntil_zero (stop : Option Addr) (s : State) : runUntil stop 0 s = .next s := rfl

/-- One more tick, when it has a next state. -/
theorem runUntil_succ_of_next {stop : Option Addr} {k : Nat} {s t : State} (h : step s = .next t) :
    runUntil stop (k + 1) s = if endsRun stop t then .next t else runUntil stop k t := by
  simp only [runUntil, h]

/-- A run that answers a state ended there first: it is `k` ticks on, at most the ticks given; all of them were used or
the boundary ends the run; and no boundary before it, after the start, ended the run (R112). -/
theorem runUntil_next {stop : Option Addr} {n : Nat} {s t : State} (h : runUntil stop n s = .next t) :
    ∃ k ≤ n, Sys2Proof.core.run k s = .next t ∧ (k = n ∨ endsRun stop t = true)
      ∧ ∀ j u, 0 < j → j < k → Sys2Proof.core.run j s = .next u → endsRun stop u = false := by
  induction n generalizing s with
  | zero => exact ⟨0, le_rfl, h, .inl rfl, fun j _ _ hj => absurd hj (Nat.not_lt_zero j)⟩
  | succ n ih =>
    cases hs : step s with
    | fault r => simp [runUntil, hs] at h
    | refused r => simp [runUntil, hs] at h
    | next v =>
      have run_succ (k : Nat) : Sys2Proof.core.run (k + 1) s = Sys2Proof.core.run k v := by
        simp only [Host.Core.run, Sys2Proof.core, hs]
      rw [runUntil_succ_of_next hs] at h
      cases he : endsRun stop v with
      | true =>
        simp only [he, if_true] at h
        refine ⟨1, Nat.succ_le_succ n.zero_le, by rw [run_succ]; exact h, .inr ?_, fun j _ hp hj => by omega⟩
        rw [← Host.Outcome.next.inj h, he]
      | false =>
        simp only [he, Bool.false_eq_true, if_false] at h
        obtain ⟨k, hk, hr, hend, hfirst⟩ := ih h
        refine ⟨k + 1, Nat.succ_le_succ hk, by rw [run_succ]; exact hr, hend.imp_left (congrArg _), ?_⟩
        rintro (_ | _ | j) u hp hj hu
        · exact absurd hp (Nat.lt_irrefl 0)
        · rw [run_succ] at hu
          rw [← Host.Outcome.next.inj hu, he]
        · rw [run_succ] at hu
          exact hfirst (j + 1) u j.succ_pos (Nat.lt_of_succ_lt_succ hj) hu

/-- What every step keeps, a run keeps. -/
theorem runUntil_keeps {P : State → Prop} (hstep : ∀ s t, P s → step s = .next t → P t) {stop : Option Addr} {n : Nat}
    {s t : State} (hs : P s) (h : runUntil stop n s = .next t) : P t := by
  induction n generalizing s with
  | zero => exact Host.Outcome.next.inj h ▸ hs
  | succ n ih =>
    cases hv : step s with
    | fault r => simp [runUntil, hv] at h
    | refused r => simp [runUntil, hv] at h
    | next v =>
      rw [runUntil_succ_of_next hv] at h
      split at h
      · exact Host.Outcome.next.inj h ▸ hstep s v hs hv
      · exact ih (hstep s v hs hv) h

end Sys2Proof.Machine
end

