-- ==== Sys2Proof/Laws/Step.lean ====
section
/-!
SUPPORT. What one tick can do (R101, R276).
-/

namespace Sys2Proof.Machine

/-- The reset step does nothing when no reset is pending (R301). -/
theorem State.resetStep_of_not_pending {s : State} (h : s.pendingReset = false) : s.resetStep = s := by
  simp [State.resetStep, h]

/-- The reset step loads PC from the vector and clears the request; nothing else changes but the calls noted (R301). -/
theorem State.resetStep_of_pending {s : State} (h : s.pendingReset = true) :
    s.resetStep = { s with
      pc := joinBytes (s.byteAt (resetVector + 1)) (s.byteAt resetVector)
      pendingReset := false
      bus := s.bus ++ [.read resetVector] ++ [.read (resetVector + 1)] } := by
  simp only [State.resetStep, h, if_true]
  rfl

/-- A byte of memory, after the reset step, is as before. -/
@[simp] theorem State.byteAt_resetStep (s : State) (b : Addr) : s.resetStep.byteAt b = s.byteAt b := by
  unfold State.resetStep
  split <;> rfl

/-- Fetching one byte, in closed form. -/
theorem State.fetchMany_one (s : State) :
    s.fetchMany 1 = { s with pc := s.pc + 1, bus := s.bus ++ [.read s.pc] } := rfl

/-- Fetching two bytes, in closed form. -/
theorem State.fetchMany_two (s : State) :
    s.fetchMany 2 = { s with pc := s.pc + 1 + 1, bus := s.bus ++ [.read s.pc] ++ [.read (s.pc + 1)] } := rfl

/-- Fetching three bytes, in closed form. -/
theorem State.fetchMany_three (s : State) :
    s.fetchMany 3 = { s with
      pc := s.pc + 1 + 1 + 1
      bus := s.bus ++ [.read s.pc] ++ [.read (s.pc + 1)] ++ [.read (s.pc + 1 + 1)] } := rfl

/-- Every way a tick answers: held, a byte with no handler, or the handler of the fetched instruction (R101, R276). -/
theorem step_cases (s : State) :
    (s.beginTick.resetStep.ready = false ∧ step s = .next s.beginTick.resetStep.hold)
      ∨ (∃ op u, s.beginTick.resetStep.ready = true ∧ s.beginTick.resetStep.fetchInstr = .illegal op u
          ∧ step s = .fault (.illegalOpcode op u))
      ∨ ∃ i u, s.beginTick.resetStep.ready = true ∧ s.beginTick.resetStep.fetchInstr = .instr i u
          ∧ step s = exec i u := by
  unfold step
  cases hr : s.beginTick.resetStep.ready
  · exact .inl ⟨rfl, by simp [hr]⟩
  · cases hf : s.beginTick.resetStep.fetchInstr with
    | instr i u => exact .inr (.inr ⟨i, u, rfl, rfl, by simp [hr, hf]⟩)
    | illegal op u => exact .inr (.inl ⟨op, u, rfl, rfl, by simp [hr, hf]⟩)

end Sys2Proof.Machine
end

