-- ==== Sys2Proof/Tests/Slice0.lean ====
section
/-!
SUPPORT. The model's own tests: the well-formedness checks refuse an ill-formed term each, words written out from the
spec's encodings decode to the instructions they stand for, one step of each instruction gives what the spec's own
examples give, and every statement with hypotheses has a concrete state that meets them.
-/

namespace Sys2Proof.Tests

open Sys2Proof.Machine Sys2Proof.Claims

/-! ### Helpers -/

/-- The next state, if there is one. -/
def nextOf : Result → Option State
  | .next t => some t
  | _ => none

/-- The byte and the state of an `IllegalOpcode` tick. -/
def illegalOf : Result → Option (Byte × State)
  | .fault (.illegalOpcode op t) => some (op, t)
  | _ => none

/-- A running core with PC at 0x8000, every register 0 and the parameters of R9 at their defaults. -/
def base : State :=
  { State.initWith [] Config.Params.specDefault with pendingReset := false, ready := true, pc := 0x8000 }

/-- Bytes loaded by the host. -/
def withBytes (s : State) (addr : Addr) (bytes : List Byte) : State := (s.host (.load addr bytes)).2

/-- One tick over code loaded at PC. -/
def tick (code : List Byte) (s : State) : Option State := nextOf (step (withBytes s s.pc code))

/-- A view of the state after a tick. -/
def view {α : Type} (f : State → α) (o : Option State) : Option α := o.map f

/-! ### Well-formedness: an ill-formed term for each check -/

/-- A row whose instruction takes no operand byte under a mode that has two is refused (R81, R83). -/
theorem test_wf_row_operands : Row.wf ⟨0xEA, "NOP", .abs, 2, .never, .plain .nop⟩ = false := by decide

/-- A table with a byte registered twice is refused (R103). -/
theorem test_wf_table_repeat :
    tableWf
        [⟨0xEA, "NOP", .imp, 2, .never, .plain .nop⟩, ⟨0xEA, "CLC", .imp, 2, .never, .plain .clc⟩] = false := by
  decide

/-- The opcode list of R85 passes. -/
theorem test_wf_opcodeTable : tableWf opcodeTable = true := by rfl

/-- Memory out of order is refused. -/
theorem test_wf_memory_order : Memory.wf [(2, 0x01), (1, 0x01)] = false := by decide

/-- Memory that lists an address twice is refused. -/
theorem test_wf_memory_repeat : Memory.wf [(1, 0x01), (1, 0x02)] = false := by decide

/-- Memory that lists the byte an unlisted address reads as is refused. -/
theorem test_wf_memory_default : Memory.wf [(1, 0x00)] = false := by decide

/-- Memory that lists an address past 0xFFFF is refused. -/
theorem test_wf_memory_range : Memory.wf [(65536, 0x01)] = false := by decide

/-- Writing the byte an unlisted address reads as removes the cell. -/
theorem test_memory_canonical : Memory.set [(1, 0x05), (2, 0x06)] 1 0x00 = [(2, 0x06)] := by decide

/-! ### Decoding: bits written out from the encodings of R85 -/

/-- `10101101 llllllll hhhhhhhh`, LDA abs. -/
theorem test_decode_load :
    decode [0b10101101, 0b00110100, 0b00010010, 0xFF] = .ok (.ldaAbs 0x1234, [0xFF]) := by rfl

/-- `10010110 zzzzzzzz`, STX zp,Y. -/
theorem test_decode_store : decode [0b10010110, 0b11110000] = .ok (.stxZpy 0xF0, []) := by rfl

/-- `00101001 iiiiiiii`, AND #; the byte the source gives. -/
theorem test_decode_logical : decode [0b00101001, 0b00100101] = .ok (.andImm 0x25, []) := by rfl

/-- `11100000 iiiiiiii`, CPX #; the byte the source gives. -/
theorem test_decode_compare : decode [0b11100000, 0b00000001] = .ok (.cpxImm 0x01, []) := by rfl

/-- `01110001 zzzzzzzz`, ADC (zp),Y. -/
theorem test_decode_arith : decode [0b01110001, 0b00100000] = .ok (.adcIndy 0x20, []) := by rfl

/-- `00111110 llllllll hhhhhhhh`, ROL abs,X. -/
theorem test_decode_rotate : decode [0b00111110, 0b11111111, 0b10000000] = .ok (.rolAbsx 0x80FF, []) := by rfl

/-- `11010000 dddddddd`, BNE. -/
theorem test_decode_branch : decode [0b11010000, 0b11111011] = .ok (.bne 0xFB, []) := by rfl

/-- `10111010`, TSX. -/
theorem test_decode_stack : decode [0b10111010] = .ok (.tsx, []) := by rfl

/-- `01101100 llllllll hhhhhhhh`, JMP (abs). -/
theorem test_decode_control : decode [0b01101100, 0b11111111, 0b00010000] = .ok (.jmpInd 0x10FF, []) := by rfl

/-- A byte of R86 is refused by name. -/
theorem test_decode_illegal : decode [0x02, 0x00, 0x00] = .error (.illegalOpcode 0x02) := by rfl

/-- Operand bytes that are not there are refused by name. -/
theorem test_decode_truncated : decode [0xAD, 0x34] = .error (.truncated 0xAD) := by rfl

/-- The encoder writes a 16-bit operand low byte first (R82). -/
theorem test_encode_word : encode (.jsr 0x9000) = [0x20, 0x00, 0x90] := by rfl

/-- A table word of 24 bits: the first byte is bits 7 to 0. -/
theorem test_decode_table_word : decodeTableWord 24 0x12348D = some (.staAbs 0x1234) := by rfl

/-- The instruction placed by `withFetchWord` is the first one run after init, reset step included (R301). -/
theorem test_withFetchWord :
    view (fun t => (t.a, t.pc, t.report)) (nextOf (step (State.reset.withFetchWord 16 0x80A9)))
      = some (0x80, 0x0002, .executed 2) := by rfl

/-! ### Every row of R85, its encoding column written out bit by bit -/

/-- Whether bytes decode to an instruction with nothing left over. -/
def decodesTo (c : List Byte × Instr) : Bool := (match decode c.1 with | .ok (i, []) => i == c.2 | _ => false)

/-- Loads and stores. -/
theorem test_encodings_load_store_1 :
    List.all
      [([0b10000001, 0b11010010], .staIndx 0xD2),
        ([0b10000100, 0b11010010], .styZp 0xD2),
        ([0b10000101, 0b11010010], .staZp 0xD2),
        ([0b10000110, 0b11010010], .stxZp 0xD2),
        ([0b10001100, 0b00110100, 0b10010010], .styAbs 0x9234),
        ([0b10001101, 0b00110100, 0b10010010], .staAbs 0x9234),
        ([0b10001110, 0b00110100, 0b10010010], .stxAbs 0x9234),
        ([0b10010001, 0b11010010], .staIndy 0xD2),
        ([0b10010100, 0b11010010], .styZpx 0xD2),
        ([0b10010101, 0b11010010], .staZpx 0xD2),
        ([0b10010110, 0b11010010], .stxZpy 0xD2),
        ([0b10011001, 0b00110100, 0b10010010], .staAbsy 0x9234),
        ([0b10011101, 0b00110100, 0b10010010], .staAbsx 0x9234),
        ([0b10100000, 0b11010010], .ldyImm 0xD2),
        ([0b10100001, 0b11010010], .ldaIndx 0xD2),
        ([0b10100010, 0b11010010], .ldxImm 0xD2),
        ([0b10100100, 0b11010010], .ldyZp 0xD2),
        ([0b10100101, 0b11010010], .ldaZp 0xD2),
        ([0b10100110, 0b11010010], .ldxZp 0xD2),
        ([0b10101001, 0b11010010], .ldaImm 0xD2),
        ([0b10101100, 0b00110100, 0b10010010], .ldyAbs 0x9234),
        ([0b10101101, 0b00110100, 0b10010010], .ldaAbs 0x9234),
        ([0b10101110, 0b00110100, 0b10010010], .ldxAbs 0x9234),
        ([0b10110001, 0b11010010], .ldaIndy 0xD2)] decodesTo = true := by
  rfl

/-- Loads and stores. -/
theorem test_encodings_load_store_2 :
    List.all
      [([0b10110100, 0b11010010], .ldyZpx 0xD2),
        ([0b10110101, 0b11010010], .ldaZpx 0xD2),
        ([0b10110110, 0b11010010], .ldxZpy 0xD2),
        ([0b10111001, 0b00110100, 0b10010010], .ldaAbsy 0x9234),
        ([0b10111100, 0b00110100, 0b10010010], .ldyAbsx 0x9234),
        ([0b10111101, 0b00110100, 0b10010010], .ldaAbsx 0x9234),
        ([0b10111110, 0b00110100, 0b10010010], .ldxAbsy 0x9234)] decodesTo = true := by
  rfl

/-- Logical operations. -/
theorem test_encodings_logical_1 :
    List.all
      [([0b00000001, 0b11010010], .oraIndx 0xD2),
        ([0b00000101, 0b11010010], .oraZp 0xD2),
        ([0b00001001, 0b11010010], .oraImm 0xD2),
        ([0b00001101, 0b00110100, 0b10010010], .oraAbs 0x9234),
        ([0b00010001, 0b11010010], .oraIndy 0xD2),
        ([0b00010101, 0b11010010], .oraZpx 0xD2),
        ([0b00011001, 0b00110100, 0b10010010], .oraAbsy 0x9234),
        ([0b00011101, 0b00110100, 0b10010010], .oraAbsx 0x9234),
        ([0b00100001, 0b11010010], .andIndx 0xD2),
        ([0b00100100, 0b11010010], .bitZp 0xD2),
        ([0b00100101, 0b11010010], .andZp 0xD2),
        ([0b00101001, 0b11010010], .andImm 0xD2),
        ([0b00101100, 0b00110100, 0b10010010], .bitAbs 0x9234),
        ([0b00101101, 0b00110100, 0b10010010], .andAbs 0x9234),
        ([0b00110001, 0b11010010], .andIndy 0xD2),
        ([0b00110101, 0b11010010], .andZpx 0xD2),
        ([0b00111001, 0b00110100, 0b10010010], .andAbsy 0x9234),
        ([0b00111101, 0b00110100, 0b10010010], .andAbsx 0x9234),
        ([0b01000001, 0b11010010], .eorIndx 0xD2),
        ([0b01000101, 0b11010010], .eorZp 0xD2),
        ([0b01001001, 0b11010010], .eorImm 0xD2),
        ([0b01001101, 0b00110100, 0b10010010], .eorAbs 0x9234),
        ([0b01010001, 0b11010010], .eorIndy 0xD2),
        ([0b01010101, 0b11010010], .eorZpx 0xD2)] decodesTo = true := by
  rfl

/-- Logical operations. -/
theorem test_encodings_logical_2 :
    List.all
      [([0b01011001, 0b00110100, 0b10010010], .eorAbsy 0x9234),
        ([0b01011101, 0b00110100, 0b10010010], .eorAbsx 0x9234)] decodesTo = true := by
  rfl

/-- Arithmetic, compare, increment and decrement. -/
theorem test_encodings_arith_1 :
    List.all
      [([0b01100001, 0b11010010], .adcIndx 0xD2),
        ([0b01100101, 0b11010010], .adcZp 0xD2),
        ([0b01101001, 0b11010010], .adcImm 0xD2),
        ([0b01101101, 0b00110100, 0b10010010], .adcAbs 0x9234),
        ([0b01110001, 0b11010010], .adcIndy 0xD2),
        ([0b01110101, 0b11010010], .adcZpx 0xD2),
        ([0b01111001, 0b00110100, 0b10010010], .adcAbsy 0x9234),
        ([0b01111101, 0b00110100, 0b10010010], .adcAbsx 0x9234),
        ([0b10001000], .dey),
        ([0b11000000, 0b11010010], .cpyImm 0xD2),
        ([0b11000001, 0b11010010], .cmpIndx 0xD2),
        ([0b11000100, 0b11010010], .cpyZp 0xD2),
        ([0b11000101, 0b11010010], .cmpZp 0xD2),
        ([0b11000110, 0b11010010], .decZp 0xD2),
        ([0b11001000], .iny),
        ([0b11001001, 0b11010010], .cmpImm 0xD2),
        ([0b11001010], .dex),
        ([0b11001100, 0b00110100, 0b10010010], .cpyAbs 0x9234),
        ([0b11001101, 0b00110100, 0b10010010], .cmpAbs 0x9234),
        ([0b11001110, 0b00110100, 0b10010010], .decAbs 0x9234),
        ([0b11010001, 0b11010010], .cmpIndy 0xD2),
        ([0b11010101, 0b11010010], .cmpZpx 0xD2),
        ([0b11010110, 0b11010010], .decZpx 0xD2),
        ([0b11011001, 0b00110100, 0b10010010], .cmpAbsy 0x9234)] decodesTo = true := by
  rfl

/-- Arithmetic, compare, increment and decrement. -/
theorem test_encodings_arith_2 :
    List.all
      [([0b11011101, 0b00110100, 0b10010010], .cmpAbsx 0x9234),
        ([0b11011110, 0b00110100, 0b10010010], .decAbsx 0x9234),
        ([0b11100000, 0b11010010], .cpxImm 0xD2),
        ([0b11100001, 0b11010010], .sbcIndx 0xD2),
        ([0b11100100, 0b11010010], .cpxZp 0xD2),
        ([0b11100101, 0b11010010], .sbcZp 0xD2),
        ([0b11100110, 0b11010010], .incZp 0xD2),
        ([0b11101000], .inx),
        ([0b11101001, 0b11010010], .sbcImm 0xD2),
        ([0b11101100, 0b00110100, 0b10010010], .cpxAbs 0x9234),
        ([0b11101101, 0b00110100, 0b10010010], .sbcAbs 0x9234),
        ([0b11101110, 0b00110100, 0b10010010], .incAbs 0x9234),
        ([0b11110001, 0b11010010], .sbcIndy 0xD2),
        ([0b11110101, 0b11010010], .sbcZpx 0xD2),
        ([0b11110110, 0b11010010], .incZpx 0xD2),
        ([0b11111001, 0b00110100, 0b10010010], .sbcAbsy 0x9234),
        ([0b11111101, 0b00110100, 0b10010010], .sbcAbsx 0x9234),
        ([0b11111110, 0b00110100, 0b10010010], .incAbsx 0x9234)] decodesTo = true := by
  rfl

/-- Shifts and rotates. -/
theorem test_encodings_shift :
    List.all
      [([0b00000110, 0b11010010], .aslZp 0xD2),
        ([0b00001010], .aslAcc),
        ([0b00001110, 0b00110100, 0b10010010], .aslAbs 0x9234),
        ([0b00010110, 0b11010010], .aslZpx 0xD2),
        ([0b00011110, 0b00110100, 0b10010010], .aslAbsx 0x9234),
        ([0b00100110, 0b11010010], .rolZp 0xD2),
        ([0b00101010], .rolAcc),
        ([0b00101110, 0b00110100, 0b10010010], .rolAbs 0x9234),
        ([0b00110110, 0b11010010], .rolZpx 0xD2),
        ([0b00111110, 0b00110100, 0b10010010], .rolAbsx 0x9234),
        ([0b01000110, 0b11010010], .lsrZp 0xD2),
        ([0b01001010], .lsrAcc),
        ([0b01001110, 0b00110100, 0b10010010], .lsrAbs 0x9234),
        ([0b01010110, 0b11010010], .lsrZpx 0xD2),
        ([0b01011110, 0b00110100, 0b10010010], .lsrAbsx 0x9234),
        ([0b01100110, 0b11010010], .rorZp 0xD2),
        ([0b01101010], .rorAcc),
        ([0b01101110, 0b00110100, 0b10010010], .rorAbs 0x9234),
        ([0b01110110, 0b11010010], .rorZpx 0xD2),
        ([0b01111110, 0b00110100, 0b10010010], .rorAbsx 0x9234)] decodesTo = true := by
  rfl

/-- Branches. -/
theorem test_encodings_branch :
    List.all
      [([0b00010000, 0b11010010], .bpl 0xD2),
        ([0b00110000, 0b11010010], .bmi 0xD2),
        ([0b01010000, 0b11010010], .bvc 0xD2),
        ([0b01110000, 0b11010010], .bvs 0xD2),
        ([0b10010000, 0b11010010], .bcc 0xD2),
        ([0b10110000, 0b11010010], .bcs 0xD2),
        ([0b11010000, 0b11010010], .bne 0xD2),
        ([0b11110000, 0b11010010], .beq 0xD2)] decodesTo = true := by
  rfl

/-- Stack operations and transfers. -/
theorem test_encodings_stack_transfer :
    List.all
      [([0b00001000], .php),
        ([0b00101000], .plp),
        ([0b01001000], .pha),
        ([0b01101000], .pla),
        ([0b10001010], .txa),
        ([0b10011000], .tya),
        ([0b10011010], .txs),
        ([0b10101000], .tay),
        ([0b10101010], .tax),
        ([0b10111010], .tsx)] decodesTo = true := by
  rfl

/-- Jumps, BRK, RTI, flag operations and NOP. -/
theorem test_encodings_control :
    List.all
      [([0b00000000], .brk),
        ([0b00011000], .clc),
        ([0b00100000, 0b00110100, 0b10010010], .jsr 0x9234),
        ([0b00111000], .sec),
        ([0b01000000], .rti),
        ([0b01001100, 0b00110100, 0b10010010], .jmpAbs 0x9234),
        ([0b01011000], .cli),
        ([0b01100000], .rts),
        ([0b01101100, 0b00110100, 0b10010010], .jmpInd 0x9234),
        ([0b01111000], .sei),
        ([0b10111000], .clv),
        ([0b11011000], .cld),
        ([0b11101010], .nop),
        ([0b11111000], .sed)] decodesTo = true := by
  rfl

/-! ### Assembler spelling (R88) -/

theorem test_spell :
    [spell (.andImm 0x25), spell (.ldaIndx 0x10), spell (.jmpInd 0x1234), spell .lsrAcc]
      = ["AND #$25", "LDA ($10,X)", "JMP ($1234)", "LSR A"] := by rfl

theorem test_spell_zero_page :
    (zeroPageOrAbsolute "LDA" 0x0010, zeroPageOrAbsolute "LDA" 0x0100, zeroPageOrAbsolute "JMP" 0x0010)
      = (.zp, .abs, .abs) := by rfl

theorem test_spell_branch :
    (branchDisplacement 0x8010 0x800D, branchDisplacement 0x8000 0x8082) = (some 0xFB, none) := by rfl

/-! ### One step of each instruction, from the examples and corner cases of the spec's rules -/

/-- R140. -/
theorem test_lda :
    view (fun t => (t.a, t.p, t.report)) (tick [0xA9, 0x80] base) = some (0x80, 0x80, .executed 2) := by decide

/-- R129: the pointer of (zp,X) wraps in the zero page; low byte at 0x00FF, high byte at 0x0000. -/
theorem test_lda_indx_wrap :
    view (fun t => (t.a, t.report))
        (tick [0xA1, 0xFE]
          (withBytes (withBytes (withBytes { base with x := 0x01 } 0x00FF [0x34]) 0x0000 [0x12]) 0x1234 [0x77]))
      = some (0x77, .executed 6) := by decide

/-- R141: `LDX $F0,Y` with Y = 0x20 reads 0x0010. -/
theorem test_ldx :
    view (fun t => (t.x, t.p)) (tick [0xB6, 0xF0] (withBytes { base with y := 0x20 } 0x0010 [0x05]))
      = some (0x05, 0x00) := by decide

/-- R142. -/
theorem test_ldy : view (fun t => (t.y, t.p)) (tick [0xA0, 0xFF] base) = some (0xFF, 0x80) := by decide

/-- R143. -/
theorem test_sta :
    view (fun t => (t.byteAt 0x0200, t.p, t.report)) (tick [0x8D, 0x00, 0x02] { base with a := 0x42 })
      = some (0x42, 0x00, .executed 4) := by decide

/-- R107 and R143: STA abs,X across a page, 0x12F0 + 0x20, costs 6 under `AllIndexed`. -/
theorem test_sta_all_indexed :
    view (fun t => (t.byteAt 0x1310, t.report))
        (tick [0x9D, 0xF0, 0x12]
          { base with a := 0x42, x := 0x20, params := { Config.Params.specDefault with pageCrossPolicy := .allIndexed } })
      = some (0x42, .executed 6) := by decide

/-- R144. -/
theorem test_stx :
    view (fun t => t.byteAt 0x0010) (tick [0x86, 0x10] { base with x := 0x07 }) = some 0x07 := by decide

/-- R145. -/
theorem test_sty :
    view (fun t => t.byteAt 0x0300) (tick [0x8C, 0x00, 0x03] { base with y := 0x09 }) = some 0x09 := by decide

/-- R160, scenario S1 of the source. -/
theorem test_and :
    view (fun t => (t.a, t.p, t.report)) (tick [0x29, 0x25] { base with a := 0x15 })
      = some (0x05, 0x00, .executed 2) := by decide

/-- R161. -/
theorem test_ora :
    view (fun t => (t.a, t.p)) (tick [0x09, 0xF0] { base with a := 0x0F }) = some (0xFF, 0x80) := by decide

/-- R162. -/
theorem test_eor :
    view (fun t => (t.a, t.p)) (tick [0x49, 0xFF] { base with a := 0xFF }) = some (0x00, 0x02) := by decide

/-- R163: N and V are the operand's, Z is of A & V. -/
theorem test_bit :
    view (fun t => (t.a, t.p)) (tick [0x24, 0x10] (withBytes { base with a := 0x01 } 0x0010 [0xC0]))
      = some (0x01, 0xC2) := by decide

/-- R171: 0x80 + 0x80 gives 0x00 with C, V and Z set. -/
theorem test_adc :
    view (fun t => (t.a, t.p)) (tick [0x69, 0x80] { base with a := 0x80 }) = some (0x00, 0x43) := by decide

/-- R184: decimal 99 + 01 gives 00 with C set and Z clear; N and V follow the signed high digits. -/
theorem test_adc_decimal :
    view (fun t => (t.a, t.p &&& 0x0B))
        (tick [0x69, 0x01] { base with a := 0x99, p := 0x08, params := Config.Params.launch })
      = some (0x00, 0x09) := by decide

/-- R172: 0x80 - 0x01 gives 0x7F with V and C set. -/
theorem test_sbc :
    view (fun t => (t.a, t.p)) (tick [0xE9, 0x01] { base with a := 0x80, p := 0x01 }) = some (0x7F, 0x41) := by decide

/-- R185: decimal 00 - 01 gives 99 with C clear. -/
theorem test_sbc_decimal :
    view (fun t => (t.a, t.p &&& 0x01))
        (tick [0xE9, 0x01] { base with a := 0x00, p := 0x09, params := Config.Params.launch })
      = some (0x99, 0x00) := by decide

/-- R175: A = 0x80 against 0x00 sets C and N. -/
theorem test_cmp :
    view (fun t => (t.a, t.p)) (tick [0xC9, 0x00] { base with a := 0x80 }) = some (0x80, 0x81) := by decide

/-- R176, scenario S2 of the source. -/
theorem test_cpx :
    view (fun t => (t.x, t.p)) (tick [0xE0, 0x01] { base with x := 0x02 }) = some (0x02, 0x01) := by decide

/-- R177. -/
theorem test_cpy :
    view (fun t => (t.y, t.p)) (tick [0xC0, 0x10] { base with y := 0x10 }) = some (0x10, 0x03) := by decide

/-- R178: 0xFF becomes 0x00 with Z set and C unchanged. -/
theorem test_inc :
    view (fun t => (t.byteAt 0x0010, t.p, t.report))
        (tick [0xE6, 0x10] (withBytes { base with p := 0x01 } 0x0010 [0xFF]))
      = some (0x00, 0x03, .executed 5) := by decide

/-- R179. -/
theorem test_dec :
    view (fun t => (t.byteAt 0x0300, t.p, t.report)) (tick [0xCE, 0x00, 0x03] (withBytes base 0x0300 [0x01]))
      = some (0x00, 0x02, .executed 6) := by decide

/-- R180. -/
theorem test_inx : view (fun t => (t.x, t.p)) (tick [0xE8] { base with x := 0x7F }) = some (0x80, 0x80) := by decide

/-- R181. -/
theorem test_iny : view (fun t => (t.y, t.p)) (tick [0xC8] { base with y := 0xFF }) = some (0x00, 0x02) := by decide

/-- R182. -/
theorem test_dex : view (fun t => (t.x, t.p)) (tick [0xCA] { base with x := 0x00 }) = some (0xFF, 0x80) := by decide

/-- R183. -/
theorem test_dey : view (fun t => (t.y, t.p)) (tick [0x88] { base with y := 0x80 }) = some (0x7F, 0x00) := by decide

/-- R190. -/
theorem test_asl :
    view (fun t => (t.a, t.p, t.report)) (tick [0x0A] { base with a := 0x81 })
      = some (0x02, 0x01, .executed 2) := by decide

/-- R191, scenario S4 of the source. -/
theorem test_lsr :
    view (fun t => (t.a, t.p)) (tick [0x4A] { base with a := 0xFF }) = some (0x7F, 0x01) := by decide

/-- R192. -/
theorem test_rol :
    view (fun t => (t.a, t.p)) (tick [0x2A] { base with a := 0x40, p := 0x01 }) = some (0x81, 0x80) := by decide

/-- R193 and R194: one read and one write of the address. -/
theorem test_ror :
    view (fun t => (t.byteAt 0x0020, t.p, t.bus)) (tick [0x66, 0x20] (withBytes base 0x0020 [0x03]))
      = some (0x01, 0x01, [.read 0x8000, .read 0x8001, .read 0x0020, .write 0x0020 0x01]) := by decide

/-- R202. -/
theorem test_bcc :
    view (fun t => (t.pc, t.report)) (tick [0x90, 0x10] base) = some (0x8012, .executed 3) := by decide

/-- R203. -/
theorem test_bcs :
    view (fun t => (t.pc, t.report)) (tick [0xB0, 0x10] base) = some (0x8002, .executed 2) := by decide

/-- R204. -/
theorem test_beq :
    view (fun t => (t.pc, t.report)) (tick [0xF0, 0x20] { base with pc := 0x80F0, p := 0x02 })
      = some (0x8112, .executed 4) := by decide

/-- R205. -/
theorem test_bne :
    view (fun t => (t.pc, t.report)) (tick [0xD0, 0xFB] { base with pc := 0x8010 })
      = some (0x800D, .executed 3) := by decide

/-- R206. -/
theorem test_bmi :
    view (fun t => (t.pc, t.report)) (tick [0x30, 0x00] { base with p := 0x80 })
      = some (0x8002, .executed 3) := by decide

/-- R207. -/
theorem test_bpl :
    view (fun t => (t.pc, t.report)) (tick [0x10, 0x80] base) = some (0x7F82, .executed 4) := by decide

/-- R208. -/
theorem test_bvc :
    view (fun t => (t.pc, t.report)) (tick [0x50, 0x05] { base with p := 0x40 })
      = some (0x8002, .executed 2) := by decide

/-- R209: the target wraps at 65536. -/
theorem test_bvs :
    view (fun t => (t.pc, t.report)) (tick [0x70, 0x7F] { base with pc := 0xFFF0, p := 0x40 })
      = some (0x0071, .executed 4) := by decide

/-- R220: SP = 0x00 writes 0x0100 and leaves SP = 0xFF. -/
theorem test_pha :
    view (fun t => (t.sp, t.byteAt 0x0100)) (tick [0x48] { base with a := 0x33 }) = some (0xFF, 0x33) := by decide

/-- R221: P is pushed as stored. -/
theorem test_php :
    view (fun t => (t.sp, t.byteAt 0x01FF)) (tick [0x08] { base with p := 0x81, sp := 0xFF })
      = some (0xFE, 0x81) := by decide

/-- R222. -/
theorem test_pla :
    view (fun t => (t.a, t.sp, t.p)) (tick [0x68] (withBytes { base with sp := 0xFC } 0x01FD [0x80]))
      = some (0x80, 0xFD, 0x80) := by decide

/-- R223: bits 4 and 5 are written as pulled. -/
theorem test_plp :
    view (fun t => (t.p, t.sp)) (tick [0x28] (withBytes { base with sp := 0xFE } 0x01FF [0xFF]))
      = some (0xFF, 0xFF) := by decide

/-- R224. -/
theorem test_tax : view (fun t => (t.x, t.p)) (tick [0xAA] { base with a := 0x90 }) = some (0x90, 0x80) := by decide

/-- R225. -/
theorem test_tay : view (fun t => (t.y, t.p)) (tick [0xA8] { base with y := 0x01 }) = some (0x00, 0x02) := by decide

/-- R226. -/
theorem test_txa : view (fun t => (t.a, t.p)) (tick [0x8A] { base with x := 0x01 }) = some (0x01, 0x00) := by decide

/-- R227. -/
theorem test_tya : view (fun t => (t.a, t.p)) (tick [0x98] { base with y := 0xFF }) = some (0xFF, 0x80) := by decide

/-- R228, `TSX_SETS_NZ` true. -/
theorem test_tsx : view (fun t => (t.x, t.p)) (tick [0xBA] { base with sp := 0xFD }) = some (0xFD, 0x80) := by decide

/-- R228, `TSX_SETS_NZ` false. -/
theorem test_tsx_no_flags :
    view (fun t => (t.x, t.p))
        (tick [0xBA] { base with sp := 0xFD, params := { Config.Params.specDefault with tsxSetsNz := false } })
      = some (0xFD, 0x00) := by decide

/-- R229. -/
theorem test_txs : view (fun t => (t.sp, t.p)) (tick [0x9A] { base with x := 0xFF }) = some (0xFF, 0x00) := by decide

/-- R131 and R240: the pointer at 0x10FF takes its high byte from 0x1000. -/
theorem test_jmp_page_wrap :
    view (fun t => (t.pc, t.report))
        (tick [0x6C, 0xFF, 0x10] (withBytes (withBytes base 0x10FF [0x34, 0x56]) 0x1000 [0x12]))
      = some (0x1234, .executed 5) := by decide

/-- R131: with `JMP_IND_PAGE_WRAP` false, from 0x1100. -/
theorem test_jmp_no_wrap :
    view (fun t => t.pc)
        (tick [0x6C, 0xFF, 0x10]
          (withBytes { base with params := { Config.Params.specDefault with jmpIndPageWrap := false } } 0x10FF
            [0x34, 0x56]))
      = some 0x5634 := by decide

/-- R241. -/
theorem test_jsr :
    view (fun t => (t.pc, t.sp, t.byteAt 0x01FF, t.byteAt 0x01FE, t.report))
        (tick [0x20, 0x00, 0x90] { base with sp := 0xFF })
      = some (0x9000, 0xFD, 0x80, 0x02, .executed 6) := by decide

/-- R242. -/
theorem test_rts :
    view (fun t => (t.pc, t.sp)) (tick [0x60] (withBytes { base with sp := 0xFD } 0x01FE [0x02, 0x80]))
      = some (0x8003, 0xFF) := by decide

/-- R243. -/
theorem test_brk :
    view (fun t => (t.pc, t.sp, t.p, [t.byteAt 0x01FF, t.byteAt 0x01FE, t.byteAt 0x01FD], t.report))
        (tick [0x00] (withBytes { base with sp := 0xFF, p := 0x01 } 0xFFFE [0x00, 0x90]))
      = some (0x9000, 0xFC, 0x05, [0x80, 0x02, 0x31], .executed 7) := by decide

/-- R244. -/
theorem test_rti :
    view (fun t => (t.p, t.pc, t.sp)) (tick [0x40] (withBytes { base with sp := 0xFC } 0x01FD [0x31, 0x02, 0x80]))
      = some (0x31, 0x8002, 0xFF) := by decide

/-- R250 to R256, each with its example. -/
theorem test_flag_operations :
    [([0x18], 0x01), ([0x38], 0x00), ([0x58], 0x04), ([0x78], 0x00), ([0xD8], 0x08), ([0xF8], 0x00), ([0xB8], 0x40)].map
        (fun (cp : List Byte × Byte) => view (fun t => t.p) (tick cp.1 { base with p := cp.2 }))
      = [some 0x00, some 0x01, some 0x00, some 0x04, some 0x00, some 0x08, some 0x00] := by decide

/-- R257: nothing but PC changes. -/
theorem test_nop :
    tick [0xEA] base
      = some { withBytes base 0x8000 [0xEA] with pc := 0x8001, report := .executed 2, bus := [.read 0x8000] } := by
  decide

/-- R271 and R103: registering a byte twice fails, naming it. -/
theorem test_register_twice :
    (match registerAll [] [⟨0xEA, "NOP", .imp, 2, .never, .plain .nop⟩, ⟨0xEA, "NOP", .imp, 2, .never, .plain .nop⟩] with
      | .error e => some e
      | .ok _ => none) = some (.duplicateOpcode 0xEA) := by rfl

/-- R270, vector S5: PC past the byte, all else unchanged, one read. -/
theorem test_illegal_opcode :
    illegalOf (step (withBytes { base with a := 0x11, x := 0x22, y := 0x33, sp := 0xFD, p := 0xC3 } 0x8000 [0x02]))
      = some (0x02, { withBytes { base with a := 0x11, x := 0x22, y := 0x33, sp := 0xFD, p := 0xC3 } 0x8000 [0x02] with
          pc := 0x8001, bus := [.read 0x8000] }) := by decide

/-- R303: init is held until the host sets `ready`, and the first tick already loads PC (conflict C4). -/
theorem test_init_held :
    view (fun t => (t.pc, t.pendingReset, t.report)) (nextOf (step (withBytes State.reset 0xFFFC [0x00, 0x80])))
      = some (0x8000, false, .notReady) := by decide

/-! ### Witnesses: the hypotheses of every statement that has some, met together -/

/-- A running core at 0x8000 with code there. -/
def running (code : List Byte) : State := withBytes base 0x8000 code

/-- A core with a reset pending, the vector at 0x8000 and code there. -/
def resetting (code : List Byte) : State :=
  withBytes (withBytes { base with pendingReset := true, pc := 0x1234 } 0xFFFC [0x00, 0x80]) 0x8000 code

/-- DecodeOfEncodeIsIdentity. -/
theorem test_witness_decode_encode :
    (Instr.staIndy 0xFF).wf = true ∧ decode (encode (.staIndy 0xFF) ++ [0x01]) = .ok (.staIndy 0xFF, [0x01]) :=
  ⟨rfl, rfl⟩

/-- DecodedBytesAreTheEncoding, with bytes left over and with none. -/
theorem test_witness_decoded_bytes :
    decode [0xEA, 0xAD, 0x34] = .ok (.nop, [0xAD, 0x34]) ∧ decode [0xAD, 0x34, 0x12] = .ok (.ldaAbs 0x1234, []) :=
  ⟨rfl, rfl⟩

/-- IllegalBytesHaveNoHandler: the first and the last of the 105 bytes. -/
theorem test_witness_illegal_bytes :
    ∀ s ∈ [running [0x02], running [0xFF]],
      s.ready = true ∧ s.pendingReset = false ∧ s.byteAt s.pc ∈ illegalBytes := by decide

/-- DuplicateRegistrationFails: a byte already registered, and one that is not. -/
theorem test_witness_duplicate :
    (∃ q ∈ opcodeTable, q.op = (⟨0xEA, "NOP", .imp, 2, .never, .plain .nop⟩ : Row).op)
      ∧ ∀ q ∈ ([] : List Row), q.op ≠ (⟨0xEA, "NOP", .imp, 2, .never, .plain .nop⟩ : Row).op :=
  ⟨⟨⟨0xEA, "NOP", .imp, 2, .never, .plain .nop⟩, by simp [opcodeTable, opcodeParts, controlRows], rfl⟩, by simp⟩

/-- StepRunsDecodedInstruction, for each length, and with the bytes wrapping at 0xFFFF. -/
theorem test_witness_step_runs :
    (running [0xEA]).ready = true ∧ (running [0xEA]).pendingReset = false
      ∧ decode (running [0xEA]).window = .ok (.nop, [0x00, 0x00])
      ∧ decode (running [0xA9, 0x80]).window = .ok (.ldaImm 0x80, [0x00])
      ∧ decode (withBytes { base with pc := 0xFFFF } 0xFFFF [0x8D, 0x34, 0x12]).window = .ok (.staAbs 0x1234, []) :=
  ⟨rfl, rfl, rfl, rfl, rfl⟩

/-- CleanEntryRunsTheFirstInstruction, with a reset pending and without, and with a reset pending and P.D = 1. -/
theorem test_witness_clean_entry :
    CleanEntry (resetting [0xA9, 0x80]) 0x8000 ∧ CleanEntry (running [0xA9, 0x80]) 0x8000
      ∧ Entry { resetting [0xA9, 0x80] with p := 0x08 } 0x8000
      ∧ { resetting [0xA9, 0x80] with p := 0x08 }.flag .d = true
      ∧ decode { resetting [0xA9, 0x80] with p := 0x08, pc := 0x8000 }.window = .ok (.ldaImm 0x80, [0x00])
      ∧ decode { resetting [0xA9, 0x80] with pc := 0x8000 }.window = .ok (.ldaImm 0x80, [0x00])
      ∧ decode { running [0xA9, 0x80] with pc := 0x8000 }.window = .ok (.ldaImm 0x80, [0x00]) :=
  ⟨by unfold CleanEntry Entry; decide, by unfold CleanEntry Entry; decide, by unfold Entry; decide, rfl, rfl, rfl, rfl⟩

/-- R112: a held tick ends the run, the stop address ends it at its first boundary, and a run that starts at its stop
address ticks (log entry 20). -/
theorem test_run_ends :
    [runUntil none 9 { running [0xEA] with ready := false }, runUntil (some 0x8001) 9 (running [0xEA]),
        runUntil (some 0x8000) 1 (running [0xEA]), runUntil none 2 (running [0xEA, 0xEA])].map
      (fun r => view (fun t => (t.pc, t.report)) (nextOf r))
      = [some (0x8000, .notReady), some (0x8001, .executed 2), some (0x8001, .executed 2),
          some (0x8002, .executed 2)] := by decide

/-- IllegalOpcodeOnlyAdvancesPc, all three clauses. -/
theorem test_witness_illegal_opcode :
    (running [0x02]).ready = true ∧ (running [0x02]).pendingReset = false
      ∧ (running [0x02]).byteAt (running [0x02]).pc ∈ illegalBytes
      ∧ (resetting [0xFF]).ready = true ∧ (resetting [0xFF]).pendingReset = true
      ∧ (resetting [0xFF]).byteAt (joinBytes ((resetting [0xFF]).byteAt 0xFFFD) ((resetting [0xFF]).byteAt 0xFFFC))
          ∈ illegalBytes
      ∧ (running [0x00]).byteAt (running [0x00]).pc ∉ illegalBytes := by
  decide

/-- OnlyIllegalBytesFault: a tick that faults. -/
theorem test_witness_only_illegal : ∃ s f, step s = .fault f := ⟨running [0x02], _, rfl⟩

/-- HeldTickFetchesNothing, both clauses: the state after init, and a held core with no reset pending. -/
theorem test_witness_held :
    State.reset.ready = false ∧ State.reset.pendingReset = true
      ∧ { State.reset with pendingReset := false }.ready = false
      ∧ { State.reset with pendingReset := false }.pendingReset = false := by decide

/-- ResetStepReloadsPcOnly: each hypothesis, and the tick going on to the first instruction, with a reset pending and
without. -/
theorem test_witness_reset_step :
    (resetting [0xEA]).pendingReset = true ∧ (running [0xEA]).pendingReset = false ∧ (resetting [0xEA]).ready = true
      ∧ decode (resetting [0xEA]).resetStep.window = .ok (.nop, [0x00, 0x00])
      ∧ (running [0xEA]).ready = true ∧ decode (running [0xEA]).resetStep.window = .ok (.nop, [0x00, 0x00]) :=
  ⟨rfl, rfl, rfl, rfl, rfl, rfl⟩

/-- StepKeepsInvariant: a step that stores, and one that faults. -/
theorem test_witness_invariant :
    (running [0x8D, 0x00, 0x02]).Inv ∧ (∃ t, step (running [0x8D, 0x00, 0x02]) = .next t)
      ∧ (running [0x02]).Inv ∧ ∃ u, step (running [0x02]) = .fault (.illegalOpcode 0x02 u) :=
  ⟨by unfold State.Inv; decide, ⟨_, rfl⟩, by unfold State.Inv; decide, ⟨_, rfl⟩⟩

/-- CanonicalMemoryIsItsReads: two canonical memories that read alike. -/
theorem test_witness_canonical :
    Memory.wf (Memory.set [(1, 0x05), (2, 0x06)] 1 0x00) = true ∧ Memory.wf [(2, 0x06)] = true
      ∧ ∀ k, k < 65536 → Memory.get (Memory.set [(1, 0x05), (2, 0x06)] 1 0x00) k = Memory.get [(2, 0x06)] k :=
  ⟨by decide, by decide, fun _ _ => rfl⟩

/-- INC abs,X across a page under `AllIndexed`: the only form that costs 8. -/
def eightCycles : State :=
  { running [0xFE, 0xF0, 0x12] with
    x := 0x20
    params := { Config.Params.specDefault with pageCrossPolicy := .allIndexed } }

/-- ReportedCyclesInRange and StepLeavesHostSignals: a held tick, and ticks at both ends of the range. -/
theorem test_witness_reported_cycles :
    view (fun t => t.report) (nextOf (step State.reset)) = some .notReady
      ∧ view (fun t => t.report) (nextOf (step (running [0xEA]))) = some (.executed 2)
      ∧ view (fun t => t.report) (nextOf (step eightCycles)) = some (.executed 8) := by decide

/-- TimingDoesNotAffectState: two states that differ, and agree once the timing is blanked. -/
theorem test_witness_timing :
    forgetTiming eightCycles = forgetTiming { eightCycles with params := Config.Params.specDefault, report := .executed 2 }
      ∧ eightCycles ≠ { eightCycles with params := Config.Params.specDefault, report := .executed 2 } := by decide

/-- AdcAddsWithCarry and SbcSubtractsWithBorrow: P.D = 0, and P.D = 1 under `Binary`. -/
theorem test_witness_binary :
    base.p.getLsbD 3 = false
      ∧ { base with p := 0x08, params := { Config.Params.specDefault with decimalMode := .binary } }.params.decimalMode
          = .binary
      ∧ ∃ f, f ∈ adcForms 0x01 0x02 0x0304 ∧ f.i = .adcImm 0x01 :=
  ⟨by decide, by decide, ⟨⟨.adcImm 0x01, [0x69, 0x01], .imm 0x01, 2⟩, List.mem_cons_self, rfl⟩⟩

/-- DecimalAdcAddsDigits and DecimalSbcSubtractsDigits: decimal operands at the ends of their range, 99 and 0. -/
theorem test_witness_decimal :
    let s : State := { base with a := 0x99, p := 0x08, params := Config.Params.launch }
    s.p.getLsbD 3 = true ∧ s.params.decimalMode = .nmosBcd ∧ s.a = bcd 99
      ∧ operandValue s (.imm 0x00) = bcd 0 ∧ operandValue s (.imm 0x99) = bcd 99 := by decide

/-- DecimalRefusalIsTheOnlyStop: a state in which ADC is refused. -/
theorem test_witness_refusal :
    exec (.adcImm 0x01) { base with p := 0x08 } = .refused .decimalMode := by rfl

/-- FlagWriters: PLP changes all eight bits of P. -/
theorem test_witness_flag_writers :
    view (fun t => t.p ^^^ base.p) (nextOf (exec .plp (withBytes base 0x0101 [0xFF]))) = some 0xFF := by decide

/-- RegisterWriters: an instruction that changes each register, and an accumulator shift that changes A. -/
theorem test_witness_register_writers :
    [nextOf (exec (.ldaImm 0x01) base), nextOf (exec .inx base), nextOf (exec .dey base), nextOf (exec .pha base),
      nextOf (exec (.jmpAbs 0x1234) base), nextOf (exec .aslAcc { base with a := 0x40 })].map
      (view fun t => (t.a, t.x, t.y, t.sp, t.pc))
      = [some (0x01, 0x00, 0x00, 0x00, 0x8000), some (0x00, 0x01, 0x00, 0x00, 0x8000),
          some (0x00, 0x00, 0xFF, 0x00, 0x8000), some (0x00, 0x00, 0x00, 0xFF, 0x8000),
          some (0x00, 0x00, 0x00, 0x00, 0x1234), some (0x80, 0x00, 0x00, 0x00, 0x8000)] := by decide

/-- OnlyStoredBytesChange: JSR at the bottom of the stack page stores to 0x0100 and 0x01FF, and not to 0x00FF. -/
theorem test_witness_stored_bytes :
    storedAddrs base (.jsr 0x9000) = [0x0100, 0x01FF] ∧ (0x00FF : Addr) ∉ storedAddrs base (.jsr 0x9000)
      ∧ (nextOf (exec (.jsr 0x9000) base)).isSome = true := by decide

/-- CyclesMatchOpcodeTable: a form of each kind of cycle rule completes. -/
theorem test_witness_cycles :
    [nextOf (exec (.ldaAbsx 0x12F0) eightCycles), nextOf (exec (.incAbsx 0x12F0) eightCycles),
      nextOf (exec (.bne 0x80) eightCycles), nextOf (exec .nop eightCycles)].map (view fun t => t.report)
      = [some (.executed 5), some (.executed 8), some (.executed 4), some (.executed 2)] := by decide

end Sys2Proof.Tests
end

section
/-!
PROOFS. The diagnostic word access (R54, R55, R283): what `write16` leaves in memory and on the bus, and that `read16`
undoes it.
-/

namespace Sys2Proof.Machine

/-- `w16(addr + 1)`, spelled in the naturals by the obligations, is the model's wrapping successor (R11). -/
theorem ofNat_toNat_add_one (addr : Addr) : BitVec.ofNat 16 (addr.toNat + 1) = addr + 1 := by
  rw [BitVec.ofNat_add, BitVec.ofNat_toNat, BitVec.setWidth_eq]
  rfl

@[simp] theorem State.write16_bus (s : State) (addr v : Addr) :
    (s.write16 addr v).bus = s.bus ++ [.write addr (lowByte v), .write (addr + 1) (highByte v)] := by
  simp [State.write16]

/-- A byte of memory after `write16` (R55); its two addresses differ, the second wrapping to 0x0000 after 0xFFFF. -/
theorem State.byteAt_write16 (s : State) (addr v b : Addr) :
    (s.write16 addr v).byteAt b =
      if b = addr + 1 then highByte v else if b = addr then lowByte v else s.byteAt b := by
  simp only [State.write16, State.byteAt_write8]

@[simp] theorem State.byteAt_write16_low (s : State) (addr v : Addr) :
    (s.write16 addr v).byteAt addr = lowByte v := by
  have hne : addr ≠ addr + 1 := by simp
  rw [State.byteAt_write16, if_neg hne, if_pos rfl]

@[simp] theorem State.byteAt_write16_high (s : State) (addr v : Addr) :
    (s.write16 addr v).byteAt (addr + 1) = highByte v := by
  rw [State.byteAt_write16, if_pos rfl]

theorem State.byteAt_write16_other (s : State) {addr b : Addr} (v : Addr) (hlow : b ≠ addr) (hhigh : b ≠ addr + 1) :
    (s.write16 addr v).byteAt b = s.byteAt b := by
  rw [State.byteAt_write16, if_neg hhigh, if_neg hlow]

/-- `read16` after `write16` joins the two bytes the write has split (R55: "the inverse"). -/
theorem State.read16_write16 (s : State) (addr v : Addr) : ((s.write16 addr v).read16 addr).1 = v := by
  rw [State.read16_fst, State.byteAt_write16_low, State.byteAt_write16_high, joinBytes_high_low]

end Sys2Proof.Machine

namespace Sys2Proof.Claims

open Sys2Proof.Machine

/-- Settles O50: each clause is one of the rules of `write16` above. -/
theorem read16UndoesWrite16 : Obligations.Read16UndoesWrite16 := by
  intro s addr v
  rw [ofNat_toNat_add_one]
  exact ⟨s.write16_bus addr v, congrArg HostAnswer.word (s.read16_write16 addr v), s.byteAt_write16_low addr v,
    s.byteAt_write16_high addr v, fun _ hlow hhigh => s.byteAt_write16_other v hlow hhigh⟩

end Sys2Proof.Claims
end

section
/-!
PROOFS. The bytes with no handler (R86): they are the complement of the opcode list, and fetching one ends the tick
with `IllegalOpcode` (R101 step 4, R270).
-/

namespace Sys2Proof.Claims

/-- No row of R85 has a byte of R86. -/
theorem not_mem_tableBytes_of_illegal :
    ∀ op ∈ illegalBytes, op ∉ opcodeTable.map Row.op := by decide

/-- The two lists leave no byte out: 151 + 105 = 256. -/
theorem mem_tableBytes_or_illegal (op : Byte) : op ∈ opcodeTable.map Row.op ∨ op ∈ illegalBytes := by
  revert op
  decide

/-- A byte has no registered handler exactly when R86 lists it. -/
theorem findRow_opcodeTable_none {op : Byte} : findRow opcodeTable op = none ↔ op ∈ illegalBytes := by
  have hnone : findRow opcodeTable op = none ↔ op ∉ opcodeTable.map Row.op := by
    simp only [findRow_none, List.mem_map, not_exists, not_and]
  rw [hnone]
  exact ⟨(mem_tableBytes_or_illegal op).resolve_left, not_mem_tableBytes_of_illegal op⟩

end Sys2Proof.Claims

namespace Sys2Proof

open Sys2Proof.Claims

/-- Bytes that begin with a byte of R86 do not decode, whatever follows. -/
theorem decode_of_illegal {op : Byte} (h : op ∈ illegalBytes) (rest : List Byte) :
    decode (op :: rest) = .error (.illegalOpcode op) := by
  have hrow : lookupRow op = none := by rw [lookupRow_eq, findRow_opcodeTable_none.mpr h]
  simp only [decode, hrow]

end Sys2Proof

namespace Sys2Proof.Machine

open Sys2Proof.Claims

/-- Fetching a byte of R86 fetches that byte alone (R270). -/
theorem State.fetchInstr_of_illegal {s : State} (h : s.byteAt s.pc ∈ illegalBytes) :
    s.fetchInstr = .illegal (s.byteAt s.pc) (s.fetchMany 1) := by
  simp only [State.fetchInstr, State.window, decode_of_illegal h]

/-- A tick that runs past the ready check and then fetches a byte of R86 ends with `IllegalOpcode`. -/
theorem step_of_illegal {s t : State} (ht : s.beginTick.resetStep = t) (hready : t.ready = true)
    (hop : t.byteAt t.pc ∈ illegalBytes) :
    step s = .fault (.illegalOpcode (t.byteAt t.pc) (t.fetchMany 1)) := by
  simp only [step, ht, hready, if_true, State.fetchInstr_of_illegal hop]

end Sys2Proof.Machine

namespace Sys2Proof.Claims

open Sys2Proof.Machine

/-- Settles O4: the two lists of bytes are complements, and with no reset pending the tick fetches at PC. -/
theorem illegalBytesHaveNoHandler : Obligations.IllegalBytesHaveNoHandler := by
  refine ⟨fun _ => findRow_opcodeTable_none, fun s hready hpending hop => ?_⟩
  have hstart : s.beginTick.resetStep = s.beginTick := State.resetStep_of_not_pending hpending
  exact ⟨s.beginTick.fetchMany 1, step_of_illegal hstart hready hop⟩

end Sys2Proof.Claims
end

section
/-!
PROOFS. How a form of an instruction meets its effect: the family operation it runs, and the shapes `ReadForm` and
`StoreForm` from a next state in closed form.
-/

namespace Sys2Proof.Machine

/-- The form is encoded as its bytes, and runs the family operation `op` with its base cycles and its operand. -/
def Form.Runs (f : Form) (op : Nat → Operand → State → Result) : Prop :=
  encode f.i = f.bytes ∧ ∀ s, exec f.i s = op f.base f.m s

/-- The read-class cycles of a form (R107) are those the meanings report. -/
theorem Form.readCycles_eq (f : Form) (s : State) :
    f.readCycles s = Machine.readCycles f.base (f.m.resolve s).extra := by
  cases h : (f.m.resolve s).extra <;> simp [Form.readCycles, Machine.readCycles, h]

/-- The store-class cycles of a form (R107) are those the meanings report. -/
theorem Form.writeCycles_eq (f : Form) (s : State) :
    f.writeCycles s = Machine.writeCycles s.params f.base (f.m.resolve s).extra := by
  cases h : (f.m.resolve s).extra <;> cases hp : s.params.pageCrossPolicy <;>
    simp [Form.writeCycles, Machine.writeCycles, h, hp]

/-- Setting the byte of one address in memory makes that byte, and no other, change. -/
theorem byteBecomes_of_mem_set {s t : State} {addr : Addr} {v : Byte} (h : t.mem = Memory.set s.mem addr.toNat v) :
    ByteBecomes s t addr v := by
  have hbyte (b : Addr) : t.byteAt b = if b = addr then v else s.byteAt b := by
    rw [← State.byteAt_write8]
    exact congrArg (Memory.get · b.toNat) h
  exact ⟨by rw [hbyte, if_pos rfl], fun b hb => by rw [hbyte, if_neg hb]⟩

end Sys2Proof.Machine

namespace Sys2Proof.Claims

open Sys2Proof.Machine

/-- A form whose operation answers `result` with P, the calls and the cycles of the read class is a read-class form. -/
theorem ReadForm.of_runs {f : Form} {op : Nat → Operand → State → Result} {s result : State} {p : Byte}
    {flags : List (Flag × Bool)} (hruns : f.Runs op) (hp : FlagsBecome s.p p flags)
    (hop : op f.base f.m s = .next { result with
      p := p
      bus := s.bus ++ operandReads s f.m
      report := .executed (readCycles f.base (f.m.resolve s).extra) }) :
    ReadForm f s result flags := by
  obtain ⟨hbytes, hexec⟩ := hruns
  rw [← f.readCycles_eq] at hop
  exact ⟨hbytes, _, (hexec s).trans hop, rfl, hp⟩

/-- A form whose operation answers `s` with one byte of memory set, and the calls and cycles of a store, is a storing
form. -/
theorem StoreForm.of_runs {f : Form} {op : Nat → Operand → State → Result} {s : State} {v : Byte}
    (hruns : f.Runs op)
    (hop : op f.base f.m s = .next { s with
      mem := Memory.set s.mem (f.m.resolve s).ea.toNat v
      bus := s.bus ++ pointerReads s f.m ++ [.write (f.m.resolve s).ea v]
      report := .executed (writeCycles s.params f.base (f.m.resolve s).extra) }) :
    StoreForm f s v := by
  obtain ⟨hbytes, hexec⟩ := hruns
  rw [← f.writeCycles_eq] at hop
  exact ⟨hbytes, _, (hexec s).trans hop, rfl, byteBecomes_of_mem_set rfl⟩

end Sys2Proof.Claims
end

section
/-!
PROOFS. Loads and stores (R140 to R145): every form the rules list runs `loadReg` or `storeReg` on its register.
-/

namespace Sys2Proof.Claims

open Sys2Proof.Machine

/-! ### The operation each form runs -/

theorem ldaForms_run (v z : Byte) (a : Addr) : ∀ f ∈ ldaForms v z a, f.Runs (loadReg .a) := by
  intro f hf
  fin_cases hf <;> exact ⟨rfl, fun _ => rfl⟩

theorem ldxForms_run (v z : Byte) (a : Addr) : ∀ f ∈ ldxForms v z a, f.Runs (loadReg .x) := by
  intro f hf
  fin_cases hf <;> exact ⟨rfl, fun _ => rfl⟩

theorem ldyForms_run (v z : Byte) (a : Addr) : ∀ f ∈ ldyForms v z a, f.Runs (loadReg .y) := by
  intro f hf
  fin_cases hf <;> exact ⟨rfl, fun _ => rfl⟩

theorem staForms_run (z : Byte) (a : Addr) : ∀ f ∈ staForms z a, f.Runs (storeReg .a) := by
  intro f hf
  fin_cases hf <;> exact ⟨rfl, fun _ => rfl⟩

theorem stxForms_run (z : Byte) (a : Addr) : ∀ f ∈ stxForms z a, f.Runs (storeReg .x) := by
  intro f hf
  fin_cases hf <;> exact ⟨rfl, fun _ => rfl⟩

theorem styForms_run (z : Byte) (a : Addr) : ∀ f ∈ styForms z a, f.Runs (storeReg .y) := by
  intro f hf
  fin_cases hf <;> exact ⟨rfl, fun _ => rfl⟩

/-! ### The effect of the operation -/

/-- Loading a register sets it to the operand and N and Z from the operand (R140 to R142). -/
theorem readForm_of_runs_loadReg {f : Form} {r : Reg} (hruns : f.Runs (loadReg r)) (s : State) :
    ReadForm f s (s.setReg r (operandValue s f.m)) (nzOf (operandValue s f.m)) := by
  have hp : FlagsBecome s.p (setNZ s.p (operandValue s f.m)) (nzOf (operandValue s f.m)) := setNZ_becomes _ _
  refine .of_runs hruns hp ?_
  rw [loadReg_eq]
  cases r <;> rfl

/-- Storing a register writes it at the effective address (R143 to R145). -/
theorem storeForm_of_runs_storeReg {f : Form} {r : Reg} (hruns : f.Runs (storeReg r)) (s : State) :
    StoreForm f s (s.reg r) :=
  .of_runs hruns (storeReg_eq s r f.base f.m)

/-! ### The obligations -/

/-- Settles O21: each load form runs `loadReg` on its register. -/
theorem loadsSetRegisterAndNZ : Obligations.LoadsSetRegisterAndNZ := fun s v z a =>
  ⟨fun f hf => readForm_of_runs_loadReg (ldaForms_run v z a f hf) s,
    fun f hf => readForm_of_runs_loadReg (ldxForms_run v z a f hf) s,
    fun f hf => readForm_of_runs_loadReg (ldyForms_run v z a f hf) s⟩

/-- Settles O22: each store form runs `storeReg` on its register. -/
theorem storesWriteOneByte : Obligations.StoresWriteOneByte := fun s z a =>
  ⟨fun f hf => storeForm_of_runs_storeReg (staForms_run z a f hf) s,
    fun f hf => storeForm_of_runs_storeReg (stxForms_run z a f hf) s,
    fun f hf => storeForm_of_runs_storeReg (styForms_run z a f hf) s⟩

end Sys2Proof.Claims
end

section
/-!
PROOFS. Logical operations on A (R160 to R162): every form the rules list runs `logic` on its bitwise operation.
-/

namespace Sys2Proof.Claims

open Sys2Proof.Machine

/-! ### The operation each form runs -/

theorem andForms_run (v z : Byte) (a : Addr) : ∀ f ∈ andForms v z a, f.Runs (logic (· &&& ·)) := by
  intro f hf
  fin_cases hf <;> exact ⟨rfl, fun _ => rfl⟩

theorem oraForms_run (v z : Byte) (a : Addr) : ∀ f ∈ oraForms v z a, f.Runs (logic (· ||| ·)) := by
  intro f hf
  fin_cases hf <;> exact ⟨rfl, fun _ => rfl⟩

theorem eorForms_run (v z : Byte) (a : Addr) : ∀ f ∈ eorForms v z a, f.Runs (logic (· ^^^ ·)) := by
  intro f hf
  fin_cases hf <;> exact ⟨rfl, fun _ => rfl⟩

/-! ### The effect of the operation -/

/-- A logical operation sets A to the combined bytes and N and Z from them; no other flag changes. -/
theorem readForm_of_runs_logic {f : Form} {g : Byte → Byte → Byte} (hruns : f.Runs (logic g)) (s : State) :
    ReadForm f s { s with a := g s.a (operandValue s f.m) } (nzOf (g s.a (operandValue s f.m))) :=
  .of_runs hruns (setNZ_becomes _ _) (logic_eq s g f.base f.m)

/-! ### The obligation -/

/-- Settles O23: each form runs `logic` on `&&&`, `|||` or `^^^`, which combine bytes bit by bit. -/
theorem logicalOperationsOnA : Obligations.LogicalOperationsOnA := fun s v z a =>
  ⟨fun f hf => ⟨s.a &&& operandValue s f.m, fun _ _ => BitVec.getLsbD_and,
      readForm_of_runs_logic (andForms_run v z a f hf) s⟩,
    fun f hf => ⟨s.a ||| operandValue s f.m, fun _ _ => BitVec.getLsbD_or,
      readForm_of_runs_logic (oraForms_run v z a f hf) s⟩,
    fun f hf => ⟨s.a ^^^ operandValue s f.m, fun _ _ => BitVec.getLsbD_xor,
      readForm_of_runs_logic (eorForms_run v z a f hf) s⟩⟩

end Sys2Proof.Claims
end

section
/-!
PROOFS. Bytes as numbers: the sign bit, the signed value, the two halves of a byte, and steps modulo 256 (R12).
-/

namespace Sys2Proof.Machine

/-- Bit 7 of a byte, read off its unsigned value. -/
theorem getLsbD_seven (v : Byte) : v.getLsbD 7 = decide (128 ≤ v.toNat) := BitVec.msb_eq_decide v

theorem getLsbD_seven_ofInt (t : Int) : (BitVec.ofInt 8 t).getLsbD 7 = decide (128 ≤ t % 256) := by
  rw [getLsbD_seven, BitVec.toNat_ofInt, decide_eq_decide]
  omega

/-- The signed value of a byte, read off its unsigned value. -/
theorem toInt_byte (v : Byte) : v.toInt = if v.toNat < 128 then (v.toNat : Int) else v.toNat - 256 := by
  rw [BitVec.toInt_eq_toNat_cond]
  split <;> split <;> omega

/-- Masking bit 7 tests it. -/
theorem and_0x80_ne_zero (v : Byte) : (v &&& 0x80 != 0) = v.getLsbD 7 := by
  have hmask : v &&& 0x80 = if v.getLsbD 7 then 0x80 else 0 := BitVec.and_twoPow v 7
  rw [hmask]
  cases v.getLsbD 7 <;> rfl

/-- `v & 0x0F` is the low digit of a byte. -/
theorem and_0x0F_toNat (v : Byte) : (v &&& 0x0F).toNat = v.toNat % 16 :=
  Nat.and_two_pow_sub_one_eq_mod v.toNat 4

/-- `v & 0xF0` is the byte with its low digit cleared. -/
theorem and_0xF0_toNat (v : Byte) : (v &&& 0xF0).toNat = v.toNat / 16 * 16 := by
  revert v
  decide

/-- Clearing the low digit keeps the sign bit, so it takes the low digit from the signed value too. -/
theorem and_0xF0_toInt (v : Byte) : (v &&& 0xF0).toInt = v.toInt - (v.toNat % 16 : Nat) := by
  rw [toInt_byte, toInt_byte, and_0xF0_toNat]
  split <;> split <;> omega

theorem xor_0xFF_toNat (v : Byte) : (v ^^^ 0xFF).toNat = 255 - v.toNat := by
  have hnot : v ^^^ 0xFF = ~~~v := BitVec.xor_allOnes
  rw [hnot, BitVec.toNat_not]

theorem xor_0xFF_toInt (v : Byte) : (v ^^^ 0xFF).toInt = -1 - v.toInt := by
  rw [toInt_byte, toInt_byte, xor_0xFF_toNat]
  split <;> split <;> omega

theorem add_one_eq_ofNat (v : Byte) : v + 1 = BitVec.ofNat 8 (v.toNat + 1) := by
  apply BitVec.eq_of_toNat_eq
  rw [BitVec.toNat_add, BitVec.toNat_ofNat]
  rfl

theorem sub_one_eq_ofNat (v : Byte) : v - 1 = BitVec.ofNat 8 (v.toNat + 255) := by
  apply BitVec.eq_of_toNat_eq
  rw [BitVec.toNat_sub, BitVec.toNat_ofNat, Nat.add_comm]
  rfl

/-- The carry into an addition is the flag C as a number. -/
theorem State.flag_toNat (s : State) (f : Flag) : (s.flag f).toNat = Claims.bitNat s f := by
  simp only [State.flag, getFlag, Claims.bitNat]
  cases s.p.getLsbD f.bit <;> rfl

end Sys2Proof.Machine
end

section
/-!
PROOFS. The binary adder (R170) and the SBC that shares it (R172), in plain arithmetic.
-/

namespace Sys2Proof.Machine

open Sys2Proof.Claims

/-- V of the adder is the signed overflow of the sum: both operands have the sign the result has not (R170). -/
theorem addBinary_v (a b : Byte) (cin : Bool) :
    (addBinary a b cin).v = Overflows (a.toInt + b.toInt + cin.toNat) := by
  have hc : cin.toNat ≤ 1 := Bool.toNat_le cin
  simp only [addBinary, and_0x80_ne_zero, BitVec.getLsbD_and, BitVec.getLsbD_xor]
  rw [Bool.eq_iff_iff]
  simp only [getLsbD_seven, BitVec.toNat_ofNat, Overflows, toInt_byte, Bool.and_eq_true, Bool.xor_iff_ne,
    ne_eq, decide_eq_decide, decide_eq_true_eq]
  split <;> split <;> omega

/-- The result of the binary SBC: the difference less the borrow, modulo 256 (R172). -/
theorem subBinary_r (a v : Byte) (cin : Bool) :
    (subBinary a v cin).r = BitVec.ofInt 8 (a.toNat - v.toNat - (1 - cin.toNat)) := by
  apply BitVec.eq_of_toNat_eq
  simp only [subBinary, addBinary, xor_0xFF_toNat, BitVec.toNat_ofNat, BitVec.toNat_ofInt]
  omega

/-- C of the binary SBC is "no borrow" (R172). -/
theorem subBinary_c (a v : Byte) (cin : Bool) :
    (subBinary a v cin).c = decide (0 ≤ (a.toNat - v.toNat - (1 - cin.toNat) : Int)) := by
  simp only [subBinary, addBinary, xor_0xFF_toNat, decide_eq_decide]
  omega

/-- V of the binary SBC is the signed overflow of the difference (R172). -/
theorem subBinary_v (a v : Byte) (cin : Bool) :
    (subBinary a v cin).v = Overflows (a.toInt - v.toInt - (1 - cin.toNat)) := by
  rw [subBinary, addBinary_v, xor_0xFF_toInt]
  congr 1
  omega

/-- P after an ADC or SBC whose N and Z are those of the byte `r`. -/
theorem aluFlags_becomes_nzOf (p : Byte) {o : AluOut} {r : Byte} (hn : o.n = r.getLsbD 7) (hz : o.z = (r == 0)) :
    FlagsBecome p (aluFlags p o) (nzOf r ++ [(.c, o.c), (.v, o.v)]) := by
  have hz' : decide (r.toNat = 0) = o.z := by
    rw [hz, beq_eq_decide, decide_eq_decide]
    exact (BitVec.toNat_eq (y := 0)).symm
  refine (aluFlags_becomes p o).congr fun fc => ?_
  simp only [nzOf, ← hn, hz', List.cons_append, List.nil_append, List.mem_cons]
  tauto

/-- P after the binary SBC (R172). -/
theorem aluFlags_subBinary_becomes (p a v : Byte) (cin : Bool) :
    FlagsBecome p (aluFlags p (subBinary a v cin))
      (nzOf (BitVec.ofInt 8 (a.toNat - v.toNat - (1 - cin.toNat)))
        ++ [(.c, decide (0 ≤ (a.toNat - v.toNat - (1 - cin.toNat) : Int))),
          (.v, Overflows (a.toInt - v.toInt - (1 - cin.toNat)))]) := by
  rw [← subBinary_r, ← subBinary_c, ← subBinary_v]
  exact aluFlags_becomes_nzOf p rfl rfl

end Sys2Proof.Machine
end

section
/-!
PROOFS. Compare, increment and decrement (R174 to R183, R194): the shapes `RmwForm` and `ImpliedForm` from a next state
in closed form, and the operation every form the rules list runs.
-/

namespace Sys2Proof.Claims

open Sys2Proof.Machine

/-! ### The shapes -/

/-- A form whose operation answers `s` with one byte of memory set, P, and the calls and cycles of a read-modify-write
is a read-modify-write form. -/
theorem RmwForm.of_runs {f : Form} {op : Nat → Operand → State → Result} {s : State} {p v : Byte}
    {flags : List (Flag × Bool)} (hruns : f.Runs op) (hp : FlagsBecome s.p p flags)
    (hop : op f.base f.m s = .next { s with
      mem := Memory.set s.mem (f.m.resolve s).ea.toNat v
      p := p
      bus := s.bus ++ pointerReads s f.m ++ [.read (f.m.resolve s).ea] ++ [.write (f.m.resolve s).ea v]
      report := .executed (writeCycles s.params f.base (f.m.resolve s).extra) }) :
    RmwForm f s v flags := by
  obtain ⟨hbytes, hexec⟩ := hruns
  rw [← f.writeCycles_eq, List.append_assoc] at hop
  exact ⟨hbytes, _, (hexec s).trans hop, rfl, byteBecomes_of_mem_set rfl, hp⟩

/-- An instruction of one byte that answers `result` with P and the cycles is an implied form. -/
theorem ImpliedForm.of_exec {i : Instr} {op p : Byte} {cycles : Nat} {s result : State} {flags : List (Flag × Bool)}
    (hbytes : encode i = [op]) (hp : FlagsBecome s.p p flags)
    (hexec : exec i s = .next { result with p := p, report := .executed cycles }) :
    ImpliedForm i op cycles s result flags :=
  ⟨hbytes, _, hexec, rfl, hp⟩

/-! ### The operation each form runs -/

theorem cmpForms_run (v z : Byte) (a : Addr) : ∀ f ∈ cmpForms v z a, f.Runs (compareReg .a) := by
  intro f hf
  fin_cases hf <;> exact ⟨rfl, fun _ => rfl⟩

theorem cpxForms_run (v z : Byte) (a : Addr) : ∀ f ∈ cpxForms v z a, f.Runs (compareReg .x) := by
  intro f hf
  fin_cases hf <;> exact ⟨rfl, fun _ => rfl⟩

theorem cpyForms_run (v z : Byte) (a : Addr) : ∀ f ∈ cpyForms v z a, f.Runs (compareReg .y) := by
  intro f hf
  fin_cases hf <;> exact ⟨rfl, fun _ => rfl⟩

theorem incForms_run (z : Byte) (a : Addr) : ∀ f ∈ incForms z a, f.Runs (modify (· + 1)) := by
  intro f hf
  fin_cases hf <;> exact ⟨rfl, fun _ => rfl⟩

theorem decForms_run (z : Byte) (a : Addr) : ∀ f ∈ decForms z a, f.Runs (modify (· - 1)) := by
  intro f hf
  fin_cases hf <;> exact ⟨rfl, fun _ => rfl⟩

/-! ### The effect of the operation -/

/-- P after a comparison, N read off the difference in plain arithmetic (R174). -/
theorem compareFlags_becomes_arith (p r v : Byte) :
    FlagsBecome p (compareFlags p r v)
      [(.c, decide (v.toNat ≤ r.toNat)), (.z, decide (r = v)),
        (.n, decide (128 ≤ ((r.toNat : Int) - v.toNat) % 256))] := by
  have hn : (r - v).getLsbD 7 = decide (128 ≤ ((r.toNat : Int) - v.toNat) % 256) := by
    rw [getLsbD_seven, BitVec.toNat_sub, decide_eq_decide]
    omega
  rw [← hn, ← beq_eq_decide]
  exact (compareFlags_becomes p r v).congr fun fc => (List.reverse_perm [_, _, _]).mem_iff

/-- Comparing a register sets C, Z and N and writes no register (R175 to R177). -/
theorem readForm_of_runs_compareReg {f : Form} {r : Reg} (hruns : f.Runs (compareReg r)) (s : State) :
    ReadForm f s s
      [(.c, decide ((operandValue s f.m).toNat ≤ (s.reg r).toNat)), (.z, decide (s.reg r = operandValue s f.m)),
        (.n, decide (128 ≤ (((s.reg r).toNat : Int) - (operandValue s f.m).toNat) % 256))] :=
  .of_runs hruns (compareFlags_becomes_arith _ _ _) (compareReg_eq s r f.base f.m)

/-- Modifying memory writes the changed byte back and sets N and Z from it (R178, R179). -/
theorem rmwForm_of_runs_modify {f : Form} {g : Byte → Byte} (hruns : f.Runs (modify g)) (s : State) :
    RmwForm f s (g (target f s)) (nzOf (g (target f s))) :=
  .of_runs hruns (setNZ_becomes _ _) (modify_eq s g f.base f.m)

/-- Stepping a register sets it and N and Z from it (R180 to R183). -/
theorem impliedForm_of_stepReg {i : Instr} {op : Byte} {r : Reg} {g : Byte → Byte} {cycles : Nat} {s : State}
    (hbytes : encode i = [op]) (hexec : exec i s = stepReg r g cycles s) :
    ImpliedForm i op cycles s (s.setReg r (g (s.reg r))) (nzOf (g (s.reg r))) := by
  refine .of_exec hbytes (setNZ_becomes s.p (g (s.reg r))) ?_
  rw [hexec, stepReg_eq]
  cases r <;> rfl

/-! ### The obligations -/

/-- Settles O30: each compare form runs `compareReg` on its register. -/
theorem comparesSetCZN : Obligations.ComparesSetCZN := fun s v z a =>
  ⟨fun f hf => readForm_of_runs_compareReg (cmpForms_run v z a f hf) s,
    fun f hf => readForm_of_runs_compareReg (cpxForms_run v z a f hf) s,
    fun f hf => readForm_of_runs_compareReg (cpyForms_run v z a f hf) s⟩

/-- Settles O31: each form runs `modify` on the successor or the predecessor of a byte. -/
theorem incDecModifyMemory : Obligations.IncDecModifyMemory := by
  intro s z a
  simp only [← add_one_eq_ofNat, ← sub_one_eq_ofNat]
  exact ⟨fun f hf => rmwForm_of_runs_modify (incForms_run z a f hf) s,
    fun f hf => rmwForm_of_runs_modify (decForms_run z a f hf) s⟩

/-- Settles O32: each instruction runs `stepReg` on its register with the successor or the predecessor of a byte. -/
theorem registerStepsWrap : Obligations.RegisterStepsWrap := by
  intro s
  simp only [← add_one_eq_ofNat, ← sub_one_eq_ofNat]
  exact ⟨impliedForm_of_stepReg (r := .x) (g := (· + 1)) rfl rfl,
    impliedForm_of_stepReg (r := .y) (g := (· + 1)) rfl rfl,
    impliedForm_of_stepReg (r := .x) (g := (· - 1)) rfl rfl,
    impliedForm_of_stepReg (r := .y) (g := (· - 1)) rfl rfl⟩

end Sys2Proof.Claims
end

section
/-!
PROOFS. Decimal addition (R184) in plain arithmetic: the low digits carried, the corrected sum, and what it is on
two-digit decimal operands.
-/

namespace Sys2Proof.Claims

open Sys2Proof.Machine

/-- The sum of the low digits with its decimal correction, the carry into the high digits at 16 (R184's `al`). -/
def carriedDigit (low : Nat) : Nat := if 10 ≤ low then (low + 6) % 16 + 16 else low

/-- The sum of the digits before the correction of the high one (R184's first `s`). -/
def digitSum (a v cin : Nat) : Nat := a / 16 * 16 + v / 16 * 16 + carriedDigit (a % 16 + v % 16 + cin)

/-- The corrected sum of two bytes of digits (R184's last `s`). -/
def decimalSum (a v cin : Nat) : Nat := if 160 ≤ digitSum a v cin then digitSum a v cin + 96 else digitSum a v cin

/-- The sum of the digits with the high ones signed, which gives N and V (R184's `t`). -/
def signedDigitSum (a v : Byte) (cin : Nat) : Int :=
  (a.toInt - (a.toNat % 16 : Nat)) + (v.toInt - (v.toNat % 16 : Nat)) + carriedDigit (a.toNat % 16 + v.toNat % 16 + cin)

/-- What the model's decimal ADC computes, in plain arithmetic (R184). -/
theorem addDecimal_eq (a v : Byte) (cin : Bool) :
    addDecimal a v cin =
      { r := BitVec.ofNat 8 (decimalSum a.toNat v.toNat cin.toNat)
        n := decide (128 ≤ signedDigitSum a v cin.toNat % 256)
        z := decide ((a.toNat + v.toNat + cin.toNat) % 256 = 0)
        c := decide (256 ≤ decimalSum a.toNat v.toNat cin.toNat)
        v := Overflows (signedDigitSum a v cin.toNat) } := by
  have hz (k : Nat) : (BitVec.ofNat 8 k == 0) = decide (k % 256 = 0) := by
    rw [beq_eq_decide, decide_eq_decide, BitVec.toNat_eq, BitVec.toNat_ofNat]
    rfl
  simp only [addDecimal, and_0x0F_toNat, and_0xF0_toNat, and_0xF0_toInt, getLsbD_seven_ofInt, hz]
  rfl

theorem bcd_toNat {n : Nat} (hn : n < 100) : (bcd n).toNat = n / 10 * 16 + n % 10 := by
  rw [bcd, BitVec.toNat_ofNat]
  omega

/-- The high digit of a two-digit byte. -/
theorem bcd_div {n : Nat} (hn : n < 100) : (bcd n).toNat / 16 = n / 10 := by
  rw [bcd_toNat hn]
  omega

/-- The low digit of a two-digit byte. -/
theorem bcd_mod {n : Nat} (hn : n < 100) : (bcd n).toNat % 16 = n % 10 := by
  rw [bcd_toNat hn]
  omega

/-- On two-digit operands the corrected sum has the digits of the sum modulo 100, and at 256 the decimal carry. -/
theorem decimalSum_bcd {m n cin : Nat} (hm : m < 100) (hn : n < 100) (hc : cin ≤ 1) :
    decimalSum (bcd m).toNat (bcd n).toNat cin
      = (bcd ((m + n + cin) % 100)).toNat + if 100 ≤ m + n + cin then 256 else 0 := by
  rw [bcd_toNat (Nat.mod_lt _ (by decide)), decimalSum, digitSum, carriedDigit, bcd_div hm, bcd_div hn, bcd_mod hm,
    bcd_mod hn]
  split_ifs <;> omega

/-- The result of a decimal addition of two-digit operands (R184). -/
theorem ofNat_decimalSum_bcd {m n cin : Nat} (hm : m < 100) (hn : n < 100) (hc : cin ≤ 1) :
    BitVec.ofNat 8 (decimalSum (bcd m).toNat (bcd n).toNat cin) = bcd ((m + n + cin) % 100) := by
  apply BitVec.eq_of_toNat_eq
  rw [decimalSum_bcd hm hn hc, BitVec.toNat_ofNat]
  split <;> omega

/-- The carry of a decimal addition of two-digit operands (R184). -/
theorem decimalSum_bcd_carry_iff {m n cin : Nat} (hm : m < 100) (hn : n < 100) (hc : cin ≤ 1) :
    256 ≤ decimalSum (bcd m).toNat (bcd n).toNat cin ↔ 100 ≤ m + n + cin := by
  rw [decimalSum_bcd hm hn hc]
  split <;> omega

end Sys2Proof.Claims
end

section
/-!
PROOFS. Decimal subtraction (R185) in plain arithmetic: the low digits borrowed, the corrected difference, and what it
is on two-digit decimal operands.
-/

namespace Sys2Proof.Claims

open Sys2Proof.Machine

/-- The difference of the low digits with its decimal correction, the borrow from the high digits at -16 (R185's
`al`). -/
def borrowedDigit (low : Int) : Int := if low < 0 then (low - 6) % 16 - 16 else low

/-- The difference of the digits before the correction of the high one (R185's first `s`). -/
def digitDifference (a v : Nat) (borrow : Int) : Int :=
  (a / 16 * 16 : Nat) - (v / 16 * 16 : Nat) + borrowedDigit ((a % 16 : Nat) - (v % 16 : Nat) - borrow)

/-- The corrected difference of two bytes of digits (R185's last `s`). -/
def decimalDifference (a v : Nat) (borrow : Int) : Int :=
  if digitDifference a v borrow < 0 then digitDifference a v borrow - 96 else digitDifference a v borrow

/-- What the model's decimal SBC leaves in A, in plain arithmetic (R185). -/
theorem subDecimal_r (a v : Byte) (cin : Bool) :
    (subDecimal a v cin).r = BitVec.ofInt 8 (decimalDifference a.toNat v.toNat (1 - cin.toNat)) := by
  have hlow : ((a.toNat % 16 : Nat) : Int) - (v.toNat % 16 : Nat) - (1 - cin.toNat)
      = (a.toNat % 16 : Nat) - (v.toNat % 16 : Nat) + cin.toNat - 1 := by omega
  simp only [decimalDifference, digitDifference, hlow, subDecimal, and_0x0F_toNat, and_0xF0_toNat]
  rfl

/-- The flags of the decimal SBC are those of the binary one (R185). -/
theorem aluFlags_subDecimal (p a v : Byte) (cin : Bool) :
    aluFlags p (subDecimal a v cin) = aluFlags p (subBinary a v cin) := rfl

/-- On two-digit operands the corrected difference has the digits of the difference modulo 100, less 256 on a decimal
borrow. -/
theorem decimalDifference_bcd {m n b : Nat} (hm : m < 100) (hn : n < 100) (hb : b ≤ 1) :
    decimalDifference (bcd m).toNat (bcd n).toNat b
      = (bcd ((m + 100 - n - b) % 100)).toNat - if m < n + b then 256 else 0 := by
  rw [bcd_toNat (Nat.mod_lt _ (by decide)), decimalDifference, digitDifference, borrowedDigit, bcd_div hm, bcd_div hn,
    bcd_mod hm, bcd_mod hn]
  split_ifs <;> omega

/-- The result of a decimal subtraction of two-digit operands (R185). -/
theorem ofInt_decimalDifference_bcd {m n b : Nat} (hm : m < 100) (hn : n < 100) (hb : b ≤ 1) :
    BitVec.ofInt 8 (decimalDifference (bcd m).toNat (bcd n).toNat b) = bcd ((m + 100 - n - b) % 100) := by
  apply BitVec.eq_of_toNat_eq
  rw [decimalDifference_bcd hm hn hb, BitVec.toNat_ofInt]
  split <;> omega

end Sys2Proof.Claims
end

section
/-!
PROOFS. ADC and SBC with P.D = 1 under `NmosBcd` (R173): every form the rules list runs `accumulate` on its two
computations, of which the decimal one counts.
-/

namespace Sys2Proof.Claims

open Sys2Proof.Machine

/-! ### The operation each form runs -/

theorem adcForms_run (v z : Byte) (a : Addr) : ∀ f ∈ adcForms v z a, f.Runs (accumulate addBinary addDecimal) := by
  intro f hf
  fin_cases hf <;> exact ⟨rfl, fun _ => rfl⟩

theorem sbcForms_run (v z : Byte) (a : Addr) : ∀ f ∈ sbcForms v z a, f.Runs (accumulate subBinary subDecimal) := by
  intro f hf
  fin_cases hf <;> exact ⟨rfl, fun _ => rfl⟩

/-! ### The effect of the operation -/

/-- With P.D = 1 under `NmosBcd` the decimal computation gives A and the flags (R173). -/
theorem readForm_of_runs_accumulate_decimal {f : Form} {binary decimal : Byte → Byte → Bool → AluOut} {s : State}
    {flags : List (Flag × Bool)} (hruns : f.Runs (accumulate binary decimal)) (hd : s.flag .d = true)
    (hmode : s.params.decimalMode = .nmosBcd)
    (hp : FlagsBecome s.p (aluFlags s.p (decimal s.a (operandValue s f.m) (s.flag .c))) flags) :
    ReadForm f s { s with a := (decimal s.a (operandValue s f.m) (s.flag .c)).r } flags := by
  refine .of_runs hruns hp ?_
  rw [accumulate_eq, if_neg (by simp [hmode]), if_pos ⟨hd, hmode⟩]
  rfl

theorem bitNat_le_one (s : State) (f : Flag) : bitNat s f ≤ 1 := by
  rw [← State.flag_toNat]
  exact Bool.toNat_le _

/-! ### The obligations -/

/-- Settles O27: each form runs `addDecimal`, and on the bytes of two-digit operands its corrected sum is the decimal
one. -/
theorem decimalAdcAddsDigits : Obligations.DecimalAdcAddsDigits := by
  intro s v z a hd hmode f hf
  refine ⟨?_, fun m n hm hn ha hv => ?_⟩
  · have hform := readForm_of_runs_accumulate_decimal (adcForms_run v z a f hf) hd hmode (aluFlags_becomes _ _)
    rw [addDecimal_eq, State.flag_toNat] at hform
    exact hform
  · have hcin := bitNat_le_one s .c
    have hdigits := ofNat_decimalSum_bcd hm hn hcin
    have hcarry := decimalSum_bcd_carry_iff hm hn hcin
    rw [← ha, ← hv] at hdigits hcarry
    exact ⟨hdigits, hcarry⟩

/-- Settles O28: each form runs `subDecimal`, whose flags are those of `subBinary`, and on the bytes of two-digit
operands its corrected difference is the decimal one. -/
theorem decimalSbcSubtractsDigits : Obligations.DecimalSbcSubtractsDigits := by
  intro s v z a hd hmode f hf
  refine ⟨?_, fun m n hm hn ha hv => ?_⟩
  · have hform := readForm_of_runs_accumulate_decimal (sbcForms_run v z a f hf) hd hmode
      (aluFlags_subBinary_becomes _ _ _ _)
    rw [subDecimal_r, State.flag_toNat] at hform
    exact hform
  · have hdigits := ofInt_decimalDifference_bcd hm hn (Nat.sub_le 1 (bitNat s .c))
    rw [← ha, ← hv, Nat.cast_sub (bitNat_le_one s .c)] at hdigits
    exact hdigits

end Sys2Proof.Claims
end

section
/-!
PROOFS. Shifts and rotates (R190 to R194): what each makes of a byte, in plain arithmetic, and the operation every
accumulator and memory form runs.
-/

namespace Sys2Proof.Machine

open Sys2Proof.Claims

/-! ### The shifted byte -/

/-- Bit 0 of a byte, read off its unsigned value. -/
theorem getLsbD_zero_byte (v : Byte) : v.getLsbD 0 = decide (v.toNat % 2 = 1) := Nat.testBit_zero v.toNat

/-- A shift left by one place doubles modulo 256. -/
theorem shiftLeft_one_toNat (v : Byte) : (v <<< 1).toNat = 2 * v.toNat % 256 := by
  rw [BitVec.toNat_shiftLeft, Nat.shiftLeft_eq, Nat.mul_comm]

/-- A shift right by one place halves. -/
theorem ushiftRight_one_toNat (v : Byte) : (v >>> 1).toNat = v.toNat / 2 := by
  rw [BitVec.toNat_ushiftRight, Nat.shiftRight_one]

/-- A shift left vacates bit 0. -/
theorem shiftLeft_one_and_0x01 (v : Byte) : (v <<< 1) &&& 0x01 = 0 := by
  revert v
  decide

/-- A shift right vacates bit 7. -/
theorem ushiftRight_one_and_0x80 (v : Byte) : (v >>> 1) &&& 0x80 = 0 := by
  revert v
  decide

/-- A carry joined to a byte at a vacated bit is added to it. -/
theorem or_carry_eq_add {r bit : Byte} (h : r &&& bit = 0) (cin : Bool) :
    r ||| (if cin then bit else 0x00) = r + if cin then bit else 0x00 := by
  cases cin
  · exact BitVec.or_zero.trans (BitVec.add_zero r).symm
  · exact (BitVec.add_eq_or_of_and_eq_zero r bit h).symm

/-- ASL in plain arithmetic (R190). -/
theorem aslByte_eq (v : Byte) (cin : Bool) :
    aslByte v cin = ⟨BitVec.ofNat 8 (2 * v.toNat), decide (128 ≤ v.toNat)⟩ := by
  have hr : v <<< 1 = BitVec.ofNat 8 (2 * v.toNat) := by
    apply BitVec.eq_of_toNat_eq
    rw [shiftLeft_one_toNat, BitVec.toNat_ofNat]
  rw [aslByte, hr, getLsbD_seven]

/-- LSR in plain arithmetic (R191). -/
theorem lsrByte_eq (v : Byte) (cin : Bool) :
    lsrByte v cin = ⟨BitVec.ofNat 8 (v.toNat / 2), decide (v.toNat % 2 = 1)⟩ := by
  have hr : v >>> 1 = BitVec.ofNat 8 (v.toNat / 2) := by
    rw [← ushiftRight_one_toNat, BitVec.ofNat_toNat, BitVec.setWidth_eq]
  rw [lsrByte, hr, getLsbD_zero_byte]

/-- ROL in plain arithmetic (R192). -/
theorem rolByte_eq (v : Byte) (cin : Bool) :
    rolByte v cin = ⟨BitVec.ofNat 8 (2 * v.toNat + cin.toNat), decide (128 ≤ v.toNat)⟩ := by
  have hr : (v <<< 1) + (if cin then 0x01 else 0x00) = BitVec.ofNat 8 (2 * v.toNat + cin.toNat) := by
    apply BitVec.eq_of_toNat_eq
    rw [BitVec.toNat_add, shiftLeft_one_toNat, BitVec.toNat_ofNat, Nat.mod_add_mod]
    cases cin <;> rfl
  rw [rolByte, or_carry_eq_add (shiftLeft_one_and_0x01 v), hr, getLsbD_seven]

/-- ROR in plain arithmetic (R193). -/
theorem rorByte_eq (v : Byte) (cin : Bool) :
    rorByte v cin = ⟨BitVec.ofNat 8 (v.toNat / 2 + 128 * cin.toNat), decide (v.toNat % 2 = 1)⟩ := by
  have hr : (v >>> 1) + (if cin then 0x80 else 0x00) = BitVec.ofNat 8 (v.toNat / 2 + 128 * cin.toNat) := by
    apply BitVec.eq_of_toNat_eq
    rw [BitVec.toNat_add, ushiftRight_one_toNat, BitVec.toNat_ofNat]
    cases cin <;> rfl
  rw [rorByte, or_carry_eq_add (ushiftRight_one_and_0x80 v), hr, getLsbD_zero_byte]

/-! ### N and Z of the halves -/

/-- The carry a rotate right lets in is the sign bit of its result (R193: "N = r[7] = old C"). -/
theorem getLsbD_seven_half_add_carry (v : Byte) (cin : Bool) :
    (BitVec.ofNat 8 (v.toNat / 2 + 128 * cin.toNat)).getLsbD 7 = cin := by
  rw [getLsbD_seven, BitVec.toNat_ofNat]
  cases cin
  · exact decide_eq_false (by rw [Bool.toNat_false]; omega)
  · exact decide_eq_true (by rw [Bool.toNat_true]; omega)

/-- N and Z after a shift right: the result has no sign bit, and is zero for 0 and 1 (R191). -/
theorem nzOf_half (v : Byte) :
    nzOf (BitVec.ofNat 8 (v.toNat / 2)) = [(.n, false), (.z, decide (v.toNat < 2))] := by
  have hn : (BitVec.ofNat 8 (v.toNat / 2)).getLsbD 7 = false := getLsbD_seven_half_add_carry v false
  have hz : (BitVec.ofNat 8 (v.toNat / 2)).toNat = 0 ↔ v.toNat < 2 := by
    rw [BitVec.toNat_ofNat]
    omega
  rw [nzOf, hn, decide_eq_decide.mpr hz]

end Sys2Proof.Machine

namespace Sys2Proof.Claims

open Sys2Proof.Machine

/-! ### The operation each form runs -/

theorem aslForms_run (z : Byte) (a : Addr) : ∀ f ∈ aslForms z a, f.Runs (shiftMem aslByte) := by
  intro f hf
  fin_cases hf <;> exact ⟨rfl, fun _ => rfl⟩

theorem lsrForms_run (z : Byte) (a : Addr) : ∀ f ∈ lsrForms z a, f.Runs (shiftMem lsrByte) := by
  intro f hf
  fin_cases hf <;> exact ⟨rfl, fun _ => rfl⟩

theorem rolForms_run (z : Byte) (a : Addr) : ∀ f ∈ rolForms z a, f.Runs (shiftMem rolByte) := by
  intro f hf
  fin_cases hf <;> exact ⟨rfl, fun _ => rfl⟩

theorem rorForms_run (z : Byte) (a : Addr) : ∀ f ∈ rorForms z a, f.Runs (shiftMem rorByte) := by
  intro f hf
  fin_cases hf <;> exact ⟨rfl, fun _ => rfl⟩

/-! ### The effect of the operation -/

/-- Shifting A sets it to the shifted byte, C to the bit shifted out, and N and Z from the result (R190 to R193). -/
theorem impliedForm_of_shiftAcc {i : Instr} {op r : Byte} {out : Bool} {g : Byte → Bool → Shifted} {cycles : Nat}
    {s : State} (hbytes : encode i = [op]) (hexec : exec i s = shiftAcc g cycles s)
    (hg : g s.a (s.flag .c) = ⟨r, out⟩) :
    ImpliedForm i op cycles s { s with a := r } ((.c, out) :: nzOf r) := by
  rw [shiftAcc_eq, hg] at hexec
  exact .of_exec hbytes (shiftFlags_becomes s.p ⟨r, out⟩) hexec

/-- Shifting memory writes the shifted byte back, and sets C to the bit shifted out and N and Z from the result (R190 to
R194). -/
theorem rmwForm_of_runs_shiftMem {f : Form} {r : Byte} {out : Bool} {g : Byte → Bool → Shifted} {s : State}
    (hruns : f.Runs (shiftMem g)) (hg : g (target f s) (s.flag .c) = ⟨r, out⟩) :
    RmwForm f s r ((.c, out) :: nzOf r) := by
  have hop := shiftMem_eq s g f.base f.m
  rw [← target, hg] at hop
  exact .of_runs hruns (shiftFlags_becomes s.p ⟨r, out⟩) hop

/-! ### The obligations -/

/-- Settles O33: each form runs `shiftAcc` or `shiftMem` on `aslByte` or `lsrByte`, which double and halve. -/
theorem shiftsMoveOneBit : Obligations.ShiftsMoveOneBit := by
  intro s z a
  simp only [← nzOf_half]
  exact ⟨impliedForm_of_shiftAcc rfl rfl (aslByte_eq _ _),
    fun f hf => rmwForm_of_runs_shiftMem (aslForms_run z a f hf) (aslByte_eq _ _),
    impliedForm_of_shiftAcc rfl rfl (lsrByte_eq _ _),
    fun f hf => rmwForm_of_runs_shiftMem (lsrForms_run z a f hf) (lsrByte_eq _ _)⟩

/-- Settles O34: each form runs `shiftAcc` or `shiftMem` on `rolByte` or `rorByte`, which add the old carry to the
double and to the half; after ROR that carry is the sign bit. -/
theorem rotatesGoThroughCarry : Obligations.RotatesGoThroughCarry := by
  intro s z a
  have hn (v : Byte) : s.p.getLsbD 0 = (BitVec.ofNat 8 (v.toNat / 2 + 128 * (s.flag .c).toNat)).getLsbD 7 :=
    (getLsbD_seven_half_add_carry v (s.flag .c)).symm
  simp only [← State.flag_toNat]
  refine ⟨impliedForm_of_shiftAcc rfl rfl (rolByte_eq _ _),
    fun f hf => rmwForm_of_runs_shiftMem (rolForms_run z a f hf) (rolByte_eq _ _), ?_, fun f hf => ?_⟩
  · rw [hn s.a]
    exact impliedForm_of_shiftAcc rfl rfl (rorByte_eq _ _)
  · rw [hn (target f s)]
    exact rmwForm_of_runs_shiftMem (rorForms_run z a f hf) (rorByte_eq _ _)

end Sys2Proof.Claims
end

section
/-!
PROOFS. The conditional branches (R200 to R209): the target and the page test in plain arithmetic, and the one effect
all eight share.
-/

namespace Sys2Proof.Machine

/-- `v & 0xFF00` is the address with its low byte cleared. -/
theorem and_0xFF00_toNat (v : Addr) : (v &&& 0xFF00).toNat = v.toNat / 256 * 256 := by
  have hmask : v &&& (0xFF00 : Addr) = v >>> 8 <<< 8 := (BitVec.shiftLeft_ushiftRight (x := v) (n := 8)).symm
  rw [hmask, BitVec.toNat_shiftLeft, BitVec.toNat_ushiftRight, Nat.shiftLeft_eq, Nat.shiftRight_eq_div_pow]
  omega

/-- A page is crossed when the high bytes differ (R133). -/
theorem pageCross_eq (base final : Addr) :
    pageCross base final = !decide (base.toNat / 256 = final.toNat / 256) := by
  have hpage : base &&& 0xFF00 = final &&& 0xFF00 ↔ base.toNat / 256 = final.toNat / 256 := by
    rw [BitVec.toNat_eq, and_0xFF00_toNat, and_0xFF00_toNat]
    omega
  rw [pageCross, bne, beq_eq_decide, decide_eq_decide.mpr hpage]

/-- The target is PC plus the signed displacement modulo 65536 (R132). -/
theorem relTarget_eq (d : Byte) (s : State) : relTarget d s = BitVec.ofInt 16 (s.pc.toNat + d.toInt) := by
  rw [BitVec.ofInt_add, BitVec.ofInt_natCast, BitVec.ofNat_toNat, BitVec.setWidth_eq]
  rfl

/-- The cost of a taken branch, by whether it stays in its page (R201). -/
theorem takenCycles_eq (base final : Addr) :
    2 + 1 + (pageCross base final).toNat = if base.toNat / 256 = final.toNat / 256 then 3 else 4 := by
  rw [pageCross_eq]
  split
  case isTrue h => rw [decide_eq_true h]; rfl
  case isFalse h => rw [decide_eq_false h]; rfl

end Sys2Proof.Machine

namespace Sys2Proof.Claims

open Sys2Proof.Machine

/-- What a branch on flag `f` having the value `want` makes of `s` (R200, R201). -/
def Branched (f : Flag) (want : Bool) (d : Byte) (s t : State) : Prop :=
  let target := BitVec.ofInt 16 (s.pc.toNat + d.toInt)
  if s.p.getLsbD f.bit = want then
    t = { s with
      pc := target
      report := .executed (if s.pc.toNat / 256 = target.toNat / 256 then 3 else 4) }
  else t = { s with report := .executed 2 }

/-- An instruction of two bytes that runs `branch` on the test of `f` for `want` branches on that test. -/
theorem does_branched {i : Instr} {op d : Byte} {f : Flag} {want taken : Bool} {s : State}
    (hbytes : encode i = [op, d]) (hexec : exec i s = branch taken 2 d s)
    (htaken : taken = true ↔ s.p.getLsbD f.bit = want) :
    Does i [op, d] s (Branched f want d s) := by
  rw [branch_eq, takenCycles_eq, relTarget_eq] at hexec
  refine ⟨hbytes, _, hexec, ?_⟩
  rw [Branched]
  by_cases h : taken = true
  · rw [if_pos (htaken.mp h), if_pos h, if_pos h]
  · rw [if_neg (mt htaken.mpr h), if_neg h, if_neg h]

theorem flag_iff_set (s : State) (f : Flag) : s.flag f = true ↔ s.p.getLsbD f.bit = true := Iff.rfl

theorem not_flag_iff_clear (s : State) (f : Flag) : (!s.flag f) = true ↔ s.p.getLsbD f.bit = false :=
  Iff.of_eq (Bool.not_eq_true' (s.flag f))

/-- Settles O36: each branch runs `branch` on the flag its rule names, as it is or negated. -/
theorem branchesTestOneFlag : Obligations.BranchesTestOneFlag := fun s _ =>
  ⟨does_branched rfl rfl (not_flag_iff_clear s .c),
    does_branched rfl rfl (flag_iff_set s .c),
    does_branched rfl rfl (flag_iff_set s .z),
    does_branched rfl rfl (not_flag_iff_clear s .z),
    does_branched rfl rfl (flag_iff_set s .n),
    does_branched rfl rfl (not_flag_iff_clear s .n),
    does_branched rfl rfl (not_flag_iff_clear s .v),
    does_branched rfl rfl (flag_iff_set s .v)⟩

end Sys2Proof.Claims
end

section
/-!
PROOFS. Pushes and register transfers (R220, R221, R224 to R229): the stack address in plain arithmetic, what a push
makes of the state, and the implied forms of the transfers.
-/

namespace Sys2Proof.Machine

/-- The stack address of R7 in plain arithmetic; `0x0100 + SP` never wraps. -/
theorem stackAddr_eq_stack (sp : Byte) : stackAddr sp = Claims.stack sp := by
  rw [stackAddr, Claims.stack, BitVec.ofNat_add, BitVec.ofNat_toNat]
  rfl

end Sys2Proof.Machine

namespace Sys2Proof.Claims

open Sys2Proof.Machine

/-! ### Pushes -/

/-- What pushing `v` makes of `s` (R60, R220, R221). -/
def Pushed (v : Byte) (s t : State) : Prop :=
  t = { s with
      sp := BitVec.ofNat 8 (s.sp.toNat + 255)
      mem := t.mem
      bus := s.bus ++ [.write (stack s.sp) v]
      report := .executed 3 }
    ∧ ByteBecomes s t (stack s.sp) v

/-- An instruction of one byte that answers `s` with `v` pushed, in 3 cycles, pushes `v`. -/
theorem does_pushed {i : Instr} {op v : Byte} {s : State} (hbytes : encode i = [op])
    (hexec : exec i s = executed 3 (s.push v)) : Does i [op] s (Pushed v s) := by
  rw [executed_eq, State.push_eq, stackAddr_eq_stack, sub_one_eq_ofNat] at hexec
  exact ⟨hbytes, _, hexec, rfl, byteBecomes_of_mem_set rfl⟩

/-- Settles O37: PHA pushes A and PHP pushes P as it is stored. -/
theorem pushesWriteTheStack : Obligations.PushesWriteTheStack := fun _ =>
  ⟨does_pushed rfl rfl, does_pushed rfl rfl⟩

/-! ### Transfers -/

/-- Transferring a register copies it, and sets N and Z from the copy (R224 to R227). -/
theorem impliedForm_of_transfer {i : Instr} {op : Byte} {src dst : Reg} {cycles : Nat} {s : State}
    (hbytes : encode i = [op]) (hexec : exec i s = transfer src dst cycles s) :
    ImpliedForm i op cycles s (s.setReg dst (s.reg src)) (nzOf (s.reg src)) := by
  refine .of_exec hbytes (setNZ_becomes s.p (s.reg src)) ?_
  rw [hexec, transfer_eq]
  cases dst <;> rfl

/-- Settles O39: each instruction runs `transfer` from its source register to its destination. -/
theorem transfersCopyAndSetNZ : Obligations.TransfersCopyAndSetNZ := fun _ =>
  ⟨impliedForm_of_transfer (src := .a) (dst := .x) rfl rfl,
    impliedForm_of_transfer (src := .a) (dst := .y) rfl rfl,
    impliedForm_of_transfer (src := .x) (dst := .a) rfl rfl,
    impliedForm_of_transfer (src := .y) (dst := .a) rfl rfl⟩

/-- N and Z written under a parameter only: P is kept when it is off (R228). -/
theorem ite_setNZ_becomes (on : Bool) (p v : Byte) :
    FlagsBecome p (if on then setNZ p v else p) (if on then nzOf v else []) := by
  cases on
  case false => exact .refl p
  case true => exact setNZ_becomes p v

/-- Settles O40: TSX writes N and Z under the parameter only, and TXS leaves P as it is. -/
theorem stackPointerTransfers : Obligations.StackPointerTransfers := fun s =>
  ⟨.of_exec rfl (ite_setNZ_becomes s.params.tsxSetsNz s.p s.sp) (execTsx_eq s),
    .of_exec rfl (.refl s.p) (execTxs_eq s)⟩

end Sys2Proof.Claims
end

section
/-!
PROOFS. The control instructions (R240 to R242, R250 to R257): the addresses they compute in plain arithmetic, what
pushing and pulling a word makes of the state, and the implied forms of the flag operations and NOP.
-/

namespace Sys2Proof.Machine

/-! ### Addresses as numbers -/

/-- `w16(addr - 1)`, spelled in the naturals by the obligations, is the model's wrapping predecessor (R11). -/
theorem ofNat_toNat_add_65535 (addr : Addr) : BitVec.ofNat 16 (addr.toNat + 65535) = addr - 1 := by
  apply BitVec.eq_of_toNat_eq
  rw [BitVec.toNat_sub, BitVec.toNat_ofNat, Nat.add_comm]
  rfl

theorem joinBytes_add_one (hi lo : Byte) :
    joinBytes hi lo + 1 = BitVec.ofNat 16 (hi.toNat * 256 + lo.toNat + 1) :=
  (BitVec.ofNat_add _ 1).symm

/-- The byte after `a` in the page of `a` (R131). -/
theorem joinBytes_highByte_lowByte_add_one (a : Addr) :
    joinBytes (highByte a) (lowByte a + 1) = BitVec.ofNat 16 (a.toNat / 256 * 256 + (a.toNat + 1) % 256) := by
  rw [joinBytes, highByte_toNat, BitVec.toNat_add, lowByte_toNat, Nat.mod_add_mod]
  rfl

/-- Where the high byte of an indirect target is read, under both values of `JMP_IND_PAGE_WRAP` (R131). -/
theorem indirectHighAddr_eq (a : Addr) (s : State) :
    indirectHighAddr a s =
      if s.params.jmpIndPageWrap then BitVec.ofNat 16 (a.toNat / 256 * 256 + (a.toNat + 1) % 256)
      else BitVec.ofNat 16 (a.toNat + 1) := by
  rw [indirectHighAddr, joinBytes_highByte_lowByte_add_one, ofNat_toNat_add_one]

/-! ### Words on the stack -/

/-- Pushing a word moves SP down by two and makes two writes, the high byte first (R241). -/
theorem State.pushWord_eq_stack (s : State) (v : Addr) :
    s.pushWord v = { s with
      sp := s.sp - 2
      mem := (s.pushWord v).mem
      bus := s.bus ++ [.write (Claims.stack s.sp) (highByte v), .write (Claims.stack (s.sp - 1)) (lowByte v)] } := by
  have hsp : s.sp - 1 - 1 = s.sp - 2 := sub_sub s.sp 1 1
  rw [State.pushWord_eq, hsp, List.append_assoc, stackAddr_eq_stack, stackAddr_eq_stack]
  rfl

/-- A byte of memory after a word is pushed (R241). -/
theorem State.byteAt_pushWord (s : State) (v b : Addr) :
    (s.pushWord v).byteAt b =
      if b = Claims.stack (s.sp - 1) then lowByte v
      else if b = Claims.stack s.sp then highByte v else s.byteAt b := by
  simp only [State.pushWord, State.push_eq, State.byteAt_setSp, State.byteAt_write8, State.setSp_sp, stackAddr_eq_stack]

/-- The two bytes of a pushed word stand at different addresses, SP wrapping or not (R7, R60). -/
theorem stack_ne_stack_sub_one (sp : Byte) : Claims.stack sp ≠ Claims.stack (sp - 1) := by
  rw [← stackAddr_eq_stack, ← stackAddr_eq_stack]
  intro h
  have hsp : sp = sp - 1 := stackAddr_inj h
  exact absurd (sub_eq_self.mp hsp.symm) (by decide)

/-- Pulling a word reads its low byte first and moves SP up by two (R242). -/
theorem State.pullWord_eq_stack (s : State) :
    s.pullWord =
      (joinBytes (s.byteAt (Claims.stack (s.sp + 2))) (s.byteAt (Claims.stack (s.sp + 1))),
        { s with
          sp := s.sp + 2
          bus := s.bus ++ [.read (Claims.stack (s.sp + 1)), .read (Claims.stack (s.sp + 2))] }) := by
  have hsp : s.sp + 1 + 1 = s.sp + 2 := add_assoc s.sp 1 1
  apply Prod.ext
  · rw [State.pullWord_fst, hsp, stackAddr_eq_stack, stackAddr_eq_stack]
  · rw [State.pullWord_snd, hsp, List.append_assoc, stackAddr_eq_stack, stackAddr_eq_stack]
    rfl

end Sys2Proof.Machine

namespace Sys2Proof.Claims

open Sys2Proof.Machine

/-! ### Jumps, calls and returns -/

/-- Settles O41: the pointer's second byte is read where `indirectHighAddr_eq` says. -/
theorem jumpsSetPc : Obligations.JumpsSetPc := by
  intro s a
  have hind := execJmpInd_eq s a
  rw [List.append_assoc, indirectHighAddr_eq] at hind
  exact ⟨⟨rfl, _, rfl, rfl⟩, rfl, _, hind, rfl⟩

/-- Settles O42: the word pushed is the address before PC, and its two bytes do not overlap. -/
theorem jsrPushesReturnAddress : Obligations.JsrPushesReturnAddress := by
  intro s a
  rw [ofNat_toNat_add_65535]
  have hexec : exec (.jsr a) s = executed 6 ((s.pushWord (s.pc - 1)).setPc a) := rfl
  have hbyte := s.byteAt_pushWord (s.pc - 1)
  refine ⟨rfl, _, hexec, ?_, ?_, ?_, fun b hhigh hlow => ?_⟩
  · rw [s.pushWord_eq_stack]
    rfl
  · exact (hbyte _).trans (by rw [if_neg (stack_ne_stack_sub_one s.sp), if_pos rfl])
  · exact (hbyte _).trans (if_pos rfl)
  · exact (hbyte b).trans (by rw [if_neg hlow, if_neg hhigh])

/-- Settles O43: RTS continues one past the pulled word. -/
theorem rtsPullsPc : Obligations.RtsPullsPc := by
  intro s
  have hexec : exec .rts s = executed 6 (s.pullWord.2.setPc (s.pullWord.1 + 1)) := rfl
  rw [s.pullWord_eq_stack, joinBytes_add_one] at hexec
  exact ⟨rfl, _, hexec, rfl⟩

/-! ### Flag operations -/

/-- Writing one flag is an implied form that changes that flag alone (R250 to R256). -/
theorem impliedForm_of_writeFlag {i : Instr} {op : Byte} {f : Flag} {c : Bool} {cycles : Nat} {s : State}
    (hbytes : encode i = [op]) (hexec : exec i s = writeFlag f c cycles s) :
    ImpliedForm i op cycles s s [(f, c)] :=
  .of_exec hbytes (setFlag_becomes s.p f c) (hexec.trans (writeFlag_eq s f c cycles))

/-- Settles O46: seven instructions run `writeFlag`, each on the flag its rule names; NOP changes only the report. -/
theorem flagOperationsWriteOneBit : Obligations.FlagOperationsWriteOneBit := fun s =>
  ⟨impliedForm_of_writeFlag rfl rfl, impliedForm_of_writeFlag rfl rfl, impliedForm_of_writeFlag rfl rfl,
    impliedForm_of_writeFlag rfl rfl, impliedForm_of_writeFlag rfl rfl, impliedForm_of_writeFlag rfl rfl,
    impliedForm_of_writeFlag rfl rfl, .of_exec rfl (.refl s.p) rfl⟩

end Sys2Proof.Claims
end

section
/-!
PROOFS. How a tick ends (R101, R270, R281): in a fault only where it fetches a byte of R86, since the bytes at any
other opcode decode and no meaning raises a fault; and as `NotReady`, with nothing fetched, when the core is held.
-/

namespace Sys2Proof

open Sys2Proof.Claims

/-! ### A byte with a handler always decodes -/

/-- Two bytes are enough for every operand (R81). -/
theorem decodeOperand_two_bytes (op : Byte) (b : Build) (v w : Byte) :
    ∃ i rest, decodeOperand op b [v, w] = .ok (i, rest) := by
  cases b with
  | plain i => exact ⟨i, _, rfl⟩
  | byte build => exact ⟨build v, _, rfl⟩
  | word build => exact ⟨build (joinBytes w v), _, rfl⟩

/-- Three bytes that begin with no byte of R86 decode. -/
theorem decode_of_not_illegal {op : Byte} (h : op ∉ illegalBytes) (v w : Byte) :
    ∃ i rest, decode [op, v, w] = .ok (i, rest) := by
  have hrow : lookupRow op ≠ none := by rwa [lookupRow_eq, ne_eq, findRow_opcodeTable_none]
  obtain ⟨row, hrow⟩ := Option.ne_none_iff_exists'.mp hrow
  simp only [decode, hrow]
  exact decodeOperand_two_bytes op row.build v w

end Sys2Proof

namespace Sys2Proof.Machine

open Sys2Proof.Claims

/-- What is fetched is no instruction only where a byte of R86 stands at PC. -/
theorem State.mem_illegalBytes_of_fetchInstr {s u : State} {op : Byte} (h : s.fetchInstr = .illegal op u) :
    s.byteAt s.pc ∈ illegalBytes := by
  by_contra hop
  obtain ⟨i, rest, hdecode⟩ := decode_of_not_illegal hop (s.byteAt (s.pc + 1)) (s.byteAt (s.pc + 2))
  simp only [State.fetchInstr, State.window, hdecode, reduceCtorEq] at h

/-! ### No meaning raises a fault -/

theorem executed_ne_fault (n : Nat) (s : State) (f : Fault) : executed n s ≠ .fault f := nofun

/-- A branch, taken or not, ends as executed (R200, R201). -/
theorem branch_ne_fault (taken : Bool) (base : Nat) (d : Byte) (s : State) (f : Fault) :
    branch taken base d s ≠ .fault f := by
  rw [branch_eq]
  nofun

/-- ADC and SBC end as executed or refused (R173). -/
theorem accumulate_ne_fault (binary decimal : Byte → Byte → Bool → AluOut) (base : Nat) (m : Operand) (s : State)
    (f : Fault) : accumulate binary decimal base m s ≠ .fault f := by
  rw [accumulate_eq]
  split <;> nofun

/-- No handler raises a fault (R276): ADC, SBC and the branches have several ways to end; every other one ends by
`executed`. -/
theorem exec_ne_fault (i : Instr) (s : State) (f : Fault) : exec i s ≠ .fault f := by
  cases i with
  | adcImm | adcZp | adcZpx | adcAbs | adcAbsx | adcAbsy | adcIndx | adcIndy
  | sbcImm | sbcZp | sbcZpx | sbcAbs | sbcAbsx | sbcAbsy | sbcIndx | sbcIndy => exact accumulate_ne_fault _ _ _ _ s f
  | bcc | bcs | beq | bne | bmi | bpl | bvc | bvs => exact branch_ne_fault _ _ _ s f
  | _ => exact executed_ne_fault _ _ f

/-! ### The start of a tick -/

/-- The reset step of a tick with no reset pending (R301). -/
theorem State.tickStart_of_not_pending {s : State} (h : s.pendingReset = false) :
    s.beginTick.resetStep = s.beginTick :=
  State.resetStep_of_not_pending h

/-- The reset step of a tick with a reset pending, its two vector reads the tick's first memory calls (R301). -/
theorem State.tickStart_of_pending {s : State} (h : s.pendingReset = true) :
    s.beginTick.resetStep = { s with
      pc := joinBytes (s.byteAt 0xFFFD) (s.byteAt 0xFFFC)
      pendingReset := false
      report := .idle
      bus := [.read 0xFFFC, .read 0xFFFD] } :=
  State.resetStep_of_pending (s := s.beginTick) h

/-- Where a tick fetches its opcode (R101, R301). -/
theorem State.tickStart_pc (s : State) :
    s.beginTick.resetStep.pc = if s.pendingReset then joinBytes (s.byteAt 0xFFFD) (s.byteAt 0xFFFC) else s.pc := by
  cases h : s.pendingReset with
  | false =>
    rw [State.tickStart_of_not_pending h]
    rfl
  | true =>
    rw [State.tickStart_of_pending h]
    rfl

/-! ### How a tick ends -/

/-- A tick faults only where its opcode fetch finds a byte of R86 (R270, R272). -/
theorem mem_illegalBytes_of_step_fault {s : State} {f : Fault} (h : step s = .fault f) :
    s.byteAt s.beginTick.resetStep.pc ∈ illegalBytes := by
  obtain ⟨-, hnext⟩ | ⟨op, u, -, hfetch, -⟩ | ⟨i, u, -, -, hexec⟩ := step_cases s
  · rw [hnext] at h
    nomatch h
  · have hop := State.mem_illegalBytes_of_fetchInstr hfetch
    rwa [State.byteAt_resetStep] at hop
  · exact absurd (hexec ▸ h) (exec_ne_fault i u f)

/-- A held tick ends after the reset step (R101 step 2). -/
theorem step_of_held {s t : State} (ht : s.beginTick.resetStep = t) (hready : t.ready = false) :
    step s = .next t.hold := by
  simp only [step, ht, hready, Bool.false_eq_true, if_false]

end Sys2Proof.Machine

namespace Sys2Proof.Claims

open Sys2Proof.Machine

/-- Settles O9: the reset step says where the tick fetches; a byte of R86 there is all it fetches, and with no such
byte there nothing faults. -/
theorem illegalOpcodeOnlyAdvancesPc : Obligations.IllegalOpcodeOnlyAdvancesPc := by
  intro s hready
  refine ⟨fun hpending hop => ?_, fun hpending hop => ?_, fun hop f hfault => hop ?_⟩
  · exact step_of_illegal (State.tickStart_of_not_pending hpending) hready hop
  · exact step_of_illegal (State.tickStart_of_pending hpending) hready hop
  · have hmem := mem_illegalBytes_of_step_fault hfault
    rwa [State.tickStart_pc] at hmem

/-- Settles O11: the tick ends after the reset step, which with no reset pending does nothing. -/
theorem heldTickFetchesNothing : Obligations.HeldTickFetchesNothing := fun _ hready =>
  ⟨fun hpending => step_of_held (State.tickStart_of_not_pending hpending) hready,
    fun hpending => step_of_held (State.tickStart_of_pending hpending) hready⟩

end Sys2Proof.Claims
end

section
/-!
PROOFS. Decoding and encoding (R80 to R86): the rows of R85 name each instruction's bytes, so decoding and encoding
undo each other.
-/

namespace Sys2Proof

/-! ### What a build makes of operand bytes -/

/-- The instruction `i` is what a row with the build makes of the operand bytes (R82). -/
inductive Build.Makes : Build → Instr → List Byte → Prop
  | plain (i : Instr) : Makes (.plain i) i []
  | byte (f : Byte → Instr) (v : Byte) : Makes (.byte f) (f v) [v]
  | word (f : Addr → Instr) (a : Addr) : Makes (.word f) (f a) [lowByte a, highByte a]

/-- Decoding takes an operand's bytes off the front and makes the instruction of them (R82). -/
theorem Build.Makes.decodeOperand_append {b : Build} {i : Instr} {operand : List Byte} (h : b.Makes i operand)
    (op : Byte) (rest : List Byte) : decodeOperand op b (operand ++ rest) = .ok (i, rest) := by
  cases h with
  | plain i => rfl
  | byte f v => rfl
  | word f a =>
    show Except.ok (f (joinBytes (highByte a) (lowByte a)), rest) = _
    rw [joinBytes_high_low]

/-- What an operand decodes to is made of exactly the bytes taken (R82). -/
theorem makes_of_decodeOperand {op : Byte} {b : Build} {bytes rest : List Byte} {i : Instr}
    (h : decodeOperand op b bytes = .ok (i, rest)) : ∃ operand, bytes = operand ++ rest ∧ b.Makes i operand := by
  match b, bytes, h with
  | .plain _, _, rfl => exact ⟨[], rfl, .plain i⟩
  | .byte f, v :: _, rfl => exact ⟨[v], rfl, .byte f v⟩
  | .word f, lo :: hi :: _, rfl =>
    have hmakes := Build.Makes.word f (joinBytes hi lo)
    rw [lowByte_joinBytes, highByte_joinBytes] at hmakes
    exact ⟨[lo, hi], rfl, hmakes⟩

/-! ### What a row says of the encoding -/

/-- What the build makes is encoded as the opcode byte and the operand (R80, R81). -/
def Build.EncodesWith (op : Byte) : Build → Prop
  | .plain i => encode i = [op]
  | .byte f => ∀ v, encode (f v) = [op, v]
  | .word f => ∀ a, encode (f a) = [op, lowByte a, highByte a]

/-- The encoder and the opcode list agree, row by row (R85). -/
theorem encodesWith_of_mem_opcodeTable : ∀ r ∈ opcodeTable, r.build.EncodesWith r.op := by
  rw [← List.forall_iff_forall_mem]
  repeat' apply And.intro
  all_goals
    simp only [Build.EncodesWith]
    intros
    rfl

theorem Build.EncodesWith.encode_eq {op : Byte} {b : Build} {i : Instr} {operand : List Byte}
    (h : b.EncodesWith op) (hmakes : b.Makes i operand) : encode i = op :: operand := by
  cases hmakes with
  | plain i => exact h
  | byte f v => exact h v
  | word f a => exact h a

/-- The row of an instruction makes it of its operand bytes (R82, R85). -/
theorem rowOf_makes (i : Instr) : ∃ row, rowOf i = some row ∧ row.build.Makes i (encode i).tail := by
  cases i with
  | inx | iny | dex | dey | aslAcc | lsrAcc | rolAcc | rorAcc | pha | php | pla | plp | tax | tay | txa | tya | tsx
  | txs | rts | brk | rti | clc | sec | cli | sei | cld | sed | clv | nop => exact ⟨_, rfl, .plain _⟩
  | ldaAbs | ldaAbsx | ldaAbsy | ldxAbs | ldxAbsy | ldyAbs | ldyAbsx | staAbs | staAbsx | staAbsy | stxAbs | styAbs
  | andAbs | andAbsx | andAbsy | oraAbs | oraAbsx | oraAbsy | eorAbs | eorAbsx | eorAbsy | bitAbs | adcAbs | adcAbsx
  | adcAbsy | sbcAbs | sbcAbsx | sbcAbsy | cmpAbs | cmpAbsx | cmpAbsy | cpxAbs | cpyAbs | incAbs | incAbsx | decAbs
  | decAbsx | aslAbs | aslAbsx | lsrAbs | lsrAbsx | rolAbs | rolAbsx | rorAbs | rorAbsx | jmpAbs | jmpInd | jsr =>
    exact ⟨_, rfl, .word _ _⟩
  | _ => exact ⟨_, rfl, .byte _ _⟩

/-- An instruction is encoded as the opcode byte of its row and an operand the row makes it of (R80 to R82). -/
theorem encode_eq_of_rowOf {i : Instr} {row : Row} (h : rowOf i = some row) :
    encode i = row.op :: (encode i).tail := by
  obtain ⟨row', hrow, hmakes⟩ := rowOf_makes i
  obtain rfl : row' = row := Option.some.inj (hrow.symm.trans h)
  have hmem : row' ∈ opcodeTable := (findRow_some ((lookupRow_eq _).symm.trans h)).1
  exact (encodesWith_of_mem_opcodeTable row' hmem).encode_eq hmakes

/-! ### Decoding and encoding undo each other -/

theorem decode_encode (i : Instr) (rest : List Byte) : decode (encode i ++ rest) = .ok (i, rest) := by
  obtain ⟨row, hrow, hmakes⟩ := rowOf_makes i
  have hop : lookupRow row.op = some row := by
    rwa [rowOf, opcodeOf, encode_eq_of_rowOf hrow] at hrow
  rw [encode_eq_of_rowOf hrow]
  simp only [List.cons_append, decode, hop]
  exact hmakes.decodeOperand_append row.op rest

theorem eq_encode_append_of_decode {bytes rest : List Byte} {i : Instr} (h : decode bytes = .ok (i, rest)) :
    bytes = encode i ++ rest := by
  cases bytes with
  | nil => cases h
  | cons op bytes =>
    cases hrow : lookupRow op with
    | none => simp only [decode, hrow, reduceCtorEq] at h
    | some row =>
      simp only [decode, hrow] at h
      obtain ⟨operand, rfl, hmakes⟩ := makes_of_decodeOperand h
      obtain ⟨hmem, rfl⟩ := findRow_some ((lookupRow_eq op).symm.trans hrow)
      rw [(encodesWith_of_mem_opcodeTable row hmem).encode_eq hmakes]
      rfl

/-! ### Registration -/

theorem nodup_of_noRepeats {ops : List Byte} (h : noRepeats ops = true) : ops.Nodup := by
  induction ops with
  | nil => exact .nil
  | cons op ops ih =>
    simp only [noRepeats, Bool.and_eq_true, Bool.not_eq_true', List.contains_eq_mem, decide_eq_false_iff_not] at h
    exact List.nodup_cons.mpr ⟨h.1, ih h.2⟩

theorem registerOpcode_of_mem {t : List Row} {r : Row} (h : ∃ q ∈ t, q.op = r.op) :
    registerOpcode t r = .error (.duplicateOpcode r.op) := by
  have hrow : findRow t r.op ≠ none := by
    rw [ne_eq, findRow_none]
    push Not
    exact h
  obtain ⟨row, hrow⟩ := Option.ne_none_iff_exists'.mp hrow
  simp only [registerOpcode, hrow]

theorem registerOpcode_of_not_mem {t : List Row} {r : Row} (h : ∀ q ∈ t, q.op ≠ r.op) :
    registerOpcode t r = .ok (t ++ [r]) := by
  simp only [registerOpcode, findRow_none.mpr h]

/-- Rows whose bytes are all different, and none of them registered yet, register in order (R103). -/
theorem registerAll_of_nodup {t rows : List Row} (h : ((t ++ rows).map Row.op).Nodup) :
    registerAll t rows = .ok (t ++ rows) := by
  induction rows generalizing t with
  | nil => rw [List.append_nil, registerAll]
  | cons r rows ih =>
    have hfresh : ∀ q ∈ t, q.op ≠ r.op := by
      rw [List.map_append, List.map_cons] at h
      intro q hq heq
      exact List.disjoint_of_nodup_append h (List.mem_map_of_mem hq) (heq ▸ List.mem_cons_self)
    rw [List.append_cons] at h ⊢
    simp only [registerAll, registerOpcode_of_not_mem hfresh, ih h]

/-- No byte is registered twice by the opcode list (R103). -/
theorem noRepeats_opcodeTable : noRepeats (opcodeTable.map Row.op) = true := by rfl

end Sys2Proof

namespace Sys2Proof.Claims

/-- Settles O1: the row of an instruction makes it of its own operand bytes. -/
theorem decodeOfEncodeIsIdentity : Obligations.DecodeOfEncodeIsIdentity := fun i rest _ => decode_encode i rest

/-- Settles O2: what a row makes of the bytes taken is encoded as those bytes. -/
theorem decodedBytesAreTheEncoding : Obligations.DecodedBytesAreTheEncoding := fun _ _ _ h =>
  ⟨eq_encode_append_of_decode h, rfl⟩

/-- Settles O3: each list of bytes is the encoding of its instruction. -/
theorem specWordsDecode : Obligations.SpecWordsDecode :=
  ⟨decode_encode (.ldaImm 0x80) [], decode_encode (.staAbs 0x0200) [], decode_encode (.andImm 0x25) [],
    decode_encode (.cpxImm 0x01) [], decode_encode .lsrAcc [], decode_encode (.rorZp 0x20) [],
    decode_encode (.beq 0x20) [], decode_encode .pha [], decode_encode (.jmpInd 0x10FF) [],
    decode_encode (.staIndy 0x20) []⟩

/-- Settles O5: registration fails exactly on a byte of a row registered before, and the rows of R85 have different
bytes. -/
theorem duplicateRegistrationFails : Obligations.DuplicateRegistrationFails :=
  ⟨fun _ _ => registerOpcode_of_mem, fun _ _ => registerOpcode_of_not_mem,
    registerAll_of_nodup (nodup_of_noRepeats noRepeats_opcodeTable), rfl⟩

end Sys2Proof.Claims
end

section
/-!
PROOFS. How a tick runs an instruction (R25, R63, R101, R301): what fetching leaves in closed form, and that the bytes
fetched are exactly those of the instruction they decode to.
-/

namespace Sys2Proof.Machine

open Sys2Proof.Claims

/-- Fetching `n` bytes, in closed form (R25). -/
theorem State.fetchMany_eq (s : State) (n : Nat) :
    s.fetchMany n = { s with
      pc := s.pc + BitVec.ofNat 16 n
      bus := s.bus ++ (List.range n).map fun k => .read (s.pc + BitVec.ofNat 16 k) } := by
  induction n generalizing s with
  | zero =>
    show s = { s with pc := s.pc + 0#16, bus := s.bus ++ [] }
    rw [BitVec.add_zero, List.append_nil]
  | succ n ih =>
    have hpc (k : Nat) : s.pc + 1#16 + BitVec.ofNat 16 k = s.pc + BitVec.ofNat 16 (k + 1) := by
      rw [BitVec.add_assoc, BitVec.add_comm 1#16, ← BitVec.ofNat_add]
    rw [State.fetchMany, ih, State.fetch8_snd, List.range_succ_eq_map]
    simp [State.note, State.setPc, hpc, Function.comp_def]

/-- What decodes at PC is fetched as exactly its own bytes (R63). -/
theorem State.fetchInstr_of_decode {s : State} {i : Instr} {rest : List Byte} (h : decode s.window = .ok (i, rest)) :
    s.fetchInstr = .instr i (s.fetchMany (encode i).length) := by
  have hlength : (encode i).length + rest.length = 3 := by
    rw [← List.length_append, ← eq_encode_append_of_decode h]
    rfl
  simp only [State.fetchInstr, h]
  rw [← hlength, Nat.add_sub_cancel]

/-- A tick that runs past the ready check and then decodes an instruction runs it past its bytes (R101). -/
theorem step_of_decode {s t : State} {i : Instr} {rest : List Byte} (ht : s.beginTick.resetStep = t)
    (hready : t.ready = true) (h : decode t.window = .ok (i, rest)) :
    step s = exec i (t.fetchMany (encode i).length) := by
  simp only [step, ht, hready, if_true, State.fetchInstr_of_decode h]

/-- The reset step, a reset pending or not, in closed form (R301). -/
theorem State.resetStep_eq (s : State) :
    s.resetStep = { s with
      pc := if s.pendingReset then joinBytes (s.byteAt 0xFFFD) (s.byteAt 0xFFFC) else s.pc
      pendingReset := false
      bus := s.bus ++ if s.pendingReset then [.read 0xFFFC, .read 0xFFFD] else [] } := by
  cases h : s.pendingReset with
  | false =>
    show s.resetStep = { s with pendingReset := false, bus := s.bus ++ [] }
    rw [State.resetStep_of_not_pending h, List.append_nil, ← h]
  | true =>
    rw [State.resetStep_of_pending h, List.append_assoc]
    rfl

@[simp] theorem State.resetStep_ready (s : State) : s.resetStep.ready = s.ready := by
  rw [State.resetStep_eq]

/-- A tick in closed form up to the meaning: the instruction found where the tick fetches runs past its bytes, the
vector reads of a pending reset before its fetches (R101, R301, D14). -/
theorem step_of_decode_at {s : State} {start : Addr} {i : Instr} {rest : List Byte} (hready : s.ready = true)
    (hstart : (if s.pendingReset then joinBytes (s.byteAt 0xFFFD) (s.byteAt 0xFFFC) else s.pc) = start)
    (h : decode { s with pc := start }.window = .ok (i, rest)) :
    step s = exec i { fetched { s with pc := start, pendingReset := false } i with
      bus := (if s.pendingReset then [.read 0xFFFC, .read 0xFFFD] else [])
        ++ (fetched { s with pc := start } i).bus } := by
  subst hstart
  rw [step_of_decode s.beginTick.resetStep_eq hready h, State.fetchMany_eq]
  rfl

/-- The byte of an `IllegalOpcode` tick is one of R86, and the core is running (R270, R272). -/
theorem step_fault_cases {s : State} {f : Fault} (h : step s = .fault f) :
    ∃ op u, f = .illegalOpcode op u ∧ op ∈ illegalBytes ∧ s.ready = true := by
  obtain ⟨-, hnext⟩ | ⟨op, u, hready, hfetch, hfault⟩ | ⟨i, u, -, -, hexec⟩ := step_cases s
  · rw [hnext] at h
    nomatch h
  · rw [State.resetStep_ready] at hready
    have hop := State.mem_illegalBytes_of_fetchInstr hfetch
    rw [State.fetchInstr_of_illegal hop] at hfetch
    cases hfetch
    exact ⟨_, _, Host.Outcome.fault.inj (h.symm.trans hfault), hop, hready⟩
  · exact absurd (hexec ▸ h) (exec_ne_fault i u f)

end Sys2Proof.Machine

namespace Sys2Proof.Claims

open Sys2Proof.Machine

/-- Settles O7: with no reset pending the tick fetches at PC. -/
theorem stepRunsDecodedInstruction : Obligations.StepRunsDecodedInstruction := by
  intro s i rest hready hpending hdecode _
  rw [step_of_decode (State.tickStart_of_not_pending hpending) hready hdecode, State.fetchMany_eq]
  rfl

/-- Settles O8: an entry at `start` is a running core that fetches at `start`. -/
theorem cleanEntryRunsTheFirstInstruction : Obligations.CleanEntryRunsTheFirstInstruction := by
  intro s start i rest hentry hdecode
  obtain ⟨hready, hstart⟩ := hentry
  refine step_of_decode_at hready ?_ hdecode
  obtain ⟨hpending, hvector⟩ | ⟨hpending, hpc⟩ := hstart
  · rw [hpending, if_pos rfl, hvector]
  · rw [hpending, if_neg Bool.false_ne_true, hpc]

/-- Settles O10: a tick faults by its fetch alone. -/
theorem onlyIllegalBytesFault : Obligations.OnlyIllegalBytesFault := fun _ _ => step_fault_cases

/-- Settles O12: the reset step as the model has it, and the tick from the address it fetches at. -/
theorem resetStepReloadsPcOnly : Obligations.ResetStepReloadsPcOnly := by
  intro s
  refine ⟨fun hpending => ?_, State.resetStep_of_not_pending, fun hready i rest hdecode => ?_⟩
  · rw [State.resetStep_of_pending hpending, List.append_assoc]
    rfl
  · rw [State.resetStep_eq] at hdecode ⊢
    exact step_of_decode_at hready rfl hdecode

end Sys2Proof.Claims
end

section
/-!
PROOFS. Memory in its canonical form (R52, log entry 1): it is determined by the bytes it reads as.
-/

namespace Sys2Proof.Machine

/-- The form of the first cell and of the rest. -/
theorem Memory.wfFrom_cons {lo k : Nat} {v : Byte} {m : Memory} :
    Memory.wfFrom lo ((k, v) :: m) = true ↔
      lo ≤ k ∧ k < 65536 ∧ v ≠ unlistedByte ∧ Memory.wfFrom (k + 1) m = true := by
  simp only [Memory.wfFrom, Bool.and_eq_true, decide_eq_true_eq, bne_iff_ne, and_assoc]

theorem Memory.get_cons_self (k : Nat) (v : Byte) (m : Memory) : Memory.get ((k, v) :: m) k = v := if_pos rfl

theorem Memory.get_cons_ne {k j : Nat} (h : k ≠ j) (v : Byte) (m : Memory) :
    Memory.get ((k, v) :: m) j = Memory.get m j := if_neg h

/-- No cell stands before the least address. -/
theorem Memory.get_of_lt {lo k : Nat} {m : Memory} (hm : Memory.wfFrom lo m = true) (hk : k < lo) :
    Memory.get m k = unlistedByte := by
  induction m generalizing lo with
  | nil => rfl
  | cons c rest ih =>
    obtain ⟨j, v⟩ := c
    obtain ⟨hlo, -, -, hrest⟩ := Memory.wfFrom_cons.mp hm
    rw [Memory.get_cons_ne (by omega)]
    exact ih hrest (by omega)

/-- A cell whose address reads alike in another memory does not stand before that memory's least address. -/
theorem Memory.le_of_reads_alike {lo k : Nat} {v : Byte} {m n : Memory} (hn : Memory.wfFrom lo n = true)
    (hv : v ≠ unlistedByte) (h : Memory.get ((k, v) :: m) k = Memory.get n k) : lo ≤ k := by
  by_contra hk
  rw [Memory.get_cons_self, Memory.get_of_lt hn (by omega)] at h
  exact hv h

/-- Canonical memories that read alike have the same cells. -/
theorem Memory.eq_of_reads_alike {lo : Nat} {m n : Memory} (hm : Memory.wfFrom lo m = true)
    (hn : Memory.wfFrom lo n = true) (h : ∀ k, k < 65536 → Memory.get m k = Memory.get n k) : m = n := by
  induction m generalizing lo n with
  | nil =>
    cases n with
    | nil => rfl
    | cons d n =>
      obtain ⟨j, w⟩ := d
      obtain ⟨-, hj, hw, -⟩ := Memory.wfFrom_cons.mp hn
      have hread := h j hj
      rw [Memory.get_cons_self] at hread
      exact absurd hread.symm hw
  | cons c m ih =>
    obtain ⟨k, v⟩ := c
    obtain ⟨hlo, hk, hv, hm'⟩ := Memory.wfFrom_cons.mp hm
    cases n with
    | nil =>
      have hread := h k hk
      rw [Memory.get_cons_self] at hread
      exact absurd hread hv
    | cons d n =>
      obtain ⟨j, w⟩ := d
      obtain ⟨hlo', hj, hw, hn'⟩ := Memory.wfFrom_cons.mp hn
      have hjk : j ≤ k := Memory.le_of_reads_alike (lo := j) (Memory.wfFrom_cons.mpr ⟨le_rfl, hj, hw, hn'⟩) hv (h k hk)
      have hkj : k ≤ j :=
        Memory.le_of_reads_alike (lo := k) (Memory.wfFrom_cons.mpr ⟨le_rfl, hk, hv, hm'⟩) hw (h j hj).symm
      obtain rfl : k = j := le_antisymm hkj hjk
      have hvw := h k hk
      rw [Memory.get_cons_self, Memory.get_cons_self] at hvw
      subst hvw
      refine congrArg _ (ih hm' hn' fun i hi => ?_)
      by_cases hik : k = i
      · subst hik
        rw [Memory.get_of_lt hm' k.lt_succ_self, Memory.get_of_lt hn' k.lt_succ_self]
      · have hread := h i hi
        rwa [Memory.get_cons_ne hik, Memory.get_cons_ne hik] at hread

end Sys2Proof.Machine

namespace Sys2Proof.Claims

open Sys2Proof.Machine

/-- Settles O15: both memories are canonical from address 0 on. -/
theorem canonicalMemoryIsItsReads : Obligations.CanonicalMemoryIsItsReads := fun _ _ => Memory.eq_of_reads_alike

/-- Settles O14: init leaves no cell. -/
theorem initMeetsInvariant : Obligations.InitMeetsInvariant := rfl

/-- Settles O6: each field as `State.reset` has it. -/
theorem initZeroesAllFields : Obligations.InitZeroesAllFields :=
  ⟨rfl, rfl, rfl, rfl, rfl, rfl, rfl, rfl, rfl, rfl, rfl⟩

/-- Settles O51: the host's `setFlag` writes P alone, and `getFlag` reads the bit written. -/
theorem diagnosticFlagAccess : Obligations.DiagnosticFlagAccess := by
  intro s f c
  have hbit : getFlag (setFlag s.p f c) f = c := by rw [getFlag, setFlag_getLsbD, if_pos rfl]
  exact ⟨rfl, setFlag_becomes s.p f c, congrArg (fun b => (HostAnswer.bit b, _)) hbit, rfl⟩

end Sys2Proof.Claims
end

section
/-!
PROOFS. The addressing modes in plain arithmetic (R124 to R130, R133).
-/

namespace Sys2Proof.Machine

theorem zpAddr_toNat (z : Byte) : (zpAddr z).toNat = z.toNat := by
  rw [zpAddr, BitVec.toNat_setWidth_of_le (by decide)]

theorem zpAddr_eq_ofNat {z : Byte} {n : Nat} (h : z.toNat = n % 256) : zpAddr z = BitVec.ofNat 16 (n % 256) := by
  rw [← h]
  exact BitVec.eq_of_toNat_eq (by rw [zpAddr_toNat, BitVec.toNat_ofNat]; omega)

/-- A zero-page pointer as a number, its two bytes read within page 0 (R56, R129, R130). -/
theorem State.readZp16_toNat (s : State) {p : Byte} {n : Nat} (h : p.toNat = n % 256) :
    (s.readZp16 p).1.toNat =
      (s.byteAt (BitVec.ofNat 16 (n % 256))).toNat + 256 * (s.byteAt (BitVec.ofNat 16 ((n + 1) % 256))).toNat := by
  have hnext : (p + 1).toNat = (n + 1) % 256 := by
    rw [BitVec.toNat_add, h, Nat.mod_add_mod]
    rfl
  rw [State.readZp16_fst, joinBytes_toNat, zpAddr_eq_ofNat h, zpAddr_eq_ofNat hnext]
  omega

theorem indexed_ea_toNat (base : Addr) (index : Byte) (s : State) :
    (indexed base index s).ea.toNat = (base.toNat + index.toNat) % 65536 := by
  show (base + index.setWidth 16).toNat = _
  rw [BitVec.toNat_add, BitVec.toNat_setWidth_of_le (by decide)]

theorem indexed_extra (base : Addr) (index : Byte) (s : State) :
    (indexed base index s).extra =
      decide (base.toNat / 256 ≠ (base.toNat + index.toNat) % 65536 / 256) := by
  rw [← indexed_ea_toNat base index s, decide_not]
  exact pageCross_eq _ _

end Sys2Proof.Machine

namespace Sys2Proof.Claims

open Sys2Proof.Machine

/-- Settles O20: what each mode resolves to in plain arithmetic; the state after is `Operand.resolve_after` for all. -/
theorem effectiveAddresses : Obligations.EffectiveAddresses := by
  intro s z a low cross is inx iny
  have hinx : (s.readZp16 (z + s.x)).1.toNat = inx := s.readZp16_toNat (BitVec.toNat_add z s.x)
  have hiny : (s.readZp16 z).1.toNat = iny := s.readZp16_toNat (Nat.mod_eq_of_lt z.isLt).symm
  refine ⟨⟨zpAddr_toNat z, rfl, Operand.resolve_after _ s⟩,
    ⟨(zpAddr_toNat _).trans (BitVec.toNat_add z s.x), rfl, Operand.resolve_after _ s⟩,
    ⟨(zpAddr_toNat _).trans (BitVec.toNat_add z s.y), rfl, Operand.resolve_after _ s⟩,
    ⟨rfl, rfl, Operand.resolve_after _ s⟩,
    ⟨indexed_ea_toNat a s.x s, indexed_extra a s.x s, Operand.resolve_after _ s⟩,
    ⟨indexed_ea_toNat a s.y s, indexed_extra a s.y s, Operand.resolve_after _ s⟩,
    ⟨hinx, rfl, Operand.resolve_after _ s⟩, ?_⟩
  rw [← hiny]
  exact ⟨indexed_ea_toNat _ _ _, indexed_extra _ _ _, Operand.resolve_after _ s⟩

end Sys2Proof.Claims
end

section
/-!
PROOFS. BIT, and ADC and SBC by the binary rules (R163, R170 to R172).
-/

namespace Sys2Proof.Claims

open Sys2Proof.Machine

theorem bitForms_run (z : Byte) (a : Addr) : ∀ f ∈ bitForms z a, f.Runs bitTest := by
  intro f hf
  fin_cases hf <;> exact ⟨rfl, fun _ => rfl⟩

/-- Settles O24: both forms run `bitTest`. -/
theorem bitTestsMemory : Obligations.BitTestsMemory := by
  intro s z a f hf
  refine .of_runs (bitForms_run z a f hf) ?_ (bitTest_eq s f.base f.m)
  refine (bitFlags_becomes s.p s.a (operandValue s f.m)).congr fun fc => ?_
  rw [beq_eq_decide]
  simp only [List.mem_cons, List.not_mem_nil]
  tauto

/-- The sum of the adder, modulo 256 (R170). -/
theorem addBinary_r (a v : Byte) (cin : Bool) :
    (addBinary a v cin).r = BitVec.ofNat 8 (a.toNat + v.toNat + cin.toNat) := rfl

/-- P after the binary ADC (R171). -/
theorem aluFlags_addBinary_becomes (p a v : Byte) (cin : Bool) :
    FlagsBecome p (aluFlags p (addBinary a v cin))
      (nzOf (BitVec.ofNat 8 (a.toNat + v.toNat + cin.toNat))
        ++ [(.c, decide (255 < a.toNat + v.toNat + cin.toNat)),
          (.v, Overflows (a.toInt + v.toInt + cin.toNat))]) := by
  rw [← addBinary_v]
  exact aluFlags_becomes_nzOf p rfl rfl

/-- With P.D = 0 or under `Binary` the binary computation gives A and the flags (R173). -/
theorem readForm_of_runs_accumulate_binary {f : Form} {binary decimal : Byte → Byte → Bool → AluOut} {s : State}
    {flags : List (Flag × Bool)} (hruns : f.Runs (accumulate binary decimal))
    (hmode : s.flag .d = false ∨ s.params.decimalMode = .binary)
    (hp : FlagsBecome s.p (aluFlags s.p (binary s.a (operandValue s f.m) (s.flag .c))) flags) :
    ReadForm f s { s with a := (binary s.a (operandValue s f.m) (s.flag .c)).r } flags := by
  have hnot (mode : Config.DecimalMode) (hne : mode ≠ .binary) :
      ¬(s.flag .d = true ∧ s.params.decimalMode = mode) := by
    rintro ⟨hd, rfl⟩
    exact hmode.elim (fun hclear => Bool.false_ne_true (hclear.symm.trans hd)) hne
  refine .of_runs hruns hp ?_
  rw [accumulate_eq, if_neg (hnot .refuse nofun), if_neg (hnot .nmosBcd nofun)]
  rfl

/-- Settles O25: each form runs `addBinary`, whose V is the signed overflow. -/
theorem adcAddsWithCarry : Obligations.AdcAddsWithCarry := by
  intro s v z a hmode f hf
  have hform := readForm_of_runs_accumulate_binary (adcForms_run v z a f hf) hmode (aluFlags_addBinary_becomes _ _ _ _)
  rw [addBinary_r, State.flag_toNat] at hform
  exact hform

/-- Settles O26: each form runs `subBinary`. -/
theorem sbcSubtractsWithBorrow : Obligations.SbcSubtractsWithBorrow := by
  intro s v z a hmode f hf
  have hform := readForm_of_runs_accumulate_binary (sbcForms_run v z a f hf) hmode (aluFlags_subBinary_becomes _ _ _ _)
  rw [subBinary_r, State.flag_toNat] at hform
  exact hform

end Sys2Proof.Claims
end

section
/-!
PROOFS. The rotation through 9 bits (R192): nine steps of A and C, and the run of ROL A they follow.
-/

namespace Sys2Proof.Machine

/-- One step of ROL on a byte and the carry. -/
def rolPair (vc : Byte × Bool) : Byte × Bool := ((rolByte vc.1 vc.2).r, (rolByte vc.1 vc.2).out)

/-- Nine steps go once round the nine bits. -/
theorem rolPair_nine (v : Byte) (c : Bool) : rolPair^[9] (v, c) = (v, c) := by
  revert v c
  decide

/-- ROL A steps A and C (R192). -/
theorem exec_rolAcc (s : State) :
    ∃ t, exec .rolAcc s = .next t ∧ (t.a, t.flag .c) = rolPair (s.a, s.flag .c) := by
  refine ⟨_, shiftAcc_eq s rolByte 2, Prod.ext rfl ?_⟩
  exact (shiftFlags_becomes s.p (rolByte s.a (s.flag .c))).1 (.c, _) List.mem_cons_self

/-- A function that takes a state to the one after ROL A takes it, in `n` steps, to one with A and C stepped `n`
times. -/
theorem exists_iterate_rolAcc {rol : Option State → Option State}
    (hrol : ∀ s t, exec .rolAcc s = .next t → rol (some s) = some t) (n : Nat) (s : State) :
    ∃ t, rol^[n] (some s) = some t ∧ (t.a, t.flag .c) = rolPair^[n] (s.a, s.flag .c) := by
  induction n generalizing s with
  | zero => exact ⟨s, rfl, rfl⟩
  | succ n ih =>
    obtain ⟨t, hexec, ht⟩ := exec_rolAcc s
    obtain ⟨u, hiter, hu⟩ := ih t
    refine ⟨u, ?_, ?_⟩
    · rw [Function.iterate_succ_apply, hrol s t hexec, hiter]
    · rw [hu, ht, Function.iterate_succ_apply]

end Sys2Proof.Machine

namespace Sys2Proof.Claims

open Sys2Proof.Machine

/-- Settles O35: nine executions of ROL A are nine steps of A and C. -/
theorem nineRotatesRestore : Obligations.NineRotatesRestore := by
  intro s rol
  have hrol (s t : State) (h : exec .rolAcc s = .next t) : rol (some s) = some t := by simp only [rol, h]
  obtain ⟨t, hiter, ht⟩ := exists_iterate_rolAcc hrol 9 s
  rw [rolPair_nine] at ht
  exact ⟨t, hiter, congrArg Prod.fst ht, congrArg Prod.snd ht⟩

end Sys2Proof.Claims
end

section
/-!
PROOFS. The stack and the trap (R60, R61, R222, R223, R242 to R244, R274): PLA, PLP, BRK and RTI, and that a pull undoes
a push.
-/

namespace Sys2Proof.Machine

open Sys2Proof.Claims

/-! ### Stack pointers and stack addresses -/

theorem sub_one_sub_one_byte (v : Byte) : v - 1 - 1 = v - 2 := sub_sub v 1 1
theorem sub_two_sub_one_byte (v : Byte) : v - 2 - 1 = v - 3 := sub_sub v 2 1
theorem add_one_add_one_byte (v : Byte) : v + 1 + 1 = v + 2 := add_assoc v 1 1
theorem add_two_add_one_byte (v : Byte) : v + 2 + 1 = v + 3 := add_assoc v 2 1

theorem sub_two_add_one_byte (v : Byte) : v - 2 + 1 = v - 1 := sub_add v 2 1
theorem sub_three_add_one_byte (v : Byte) : v - 3 + 1 = v - 2 := sub_add v 3 1
theorem sub_three_add_two_byte (v : Byte) : v - 3 + 2 = v - 1 := sub_add v 3 2

theorem stack_toNat (sp : Byte) : (stack sp).toNat = 256 + sp.toNat := by
  rw [stack, BitVec.toNat_ofNat]
  omega

/-- The stack page stands below every address above it (R7). -/
theorem ne_stack_of_le {addr : Addr} (h : 512 ≤ addr.toNat) (sp : Byte) : addr ≠ stack sp := by
  rintro rfl
  rw [stack_toNat] at h
  omega

/-- Stack pointers that differ by less than a page stand for different addresses (R7). -/
theorem stack_ne_stack_sub {d : Byte} (hd : d ≠ 0) (sp : Byte) : stack sp ≠ stack (sp - d) := by
  rw [← stackAddr_eq_stack, ← stackAddr_eq_stack]
  exact fun h => hd (sub_eq_self.mp (stackAddr_inj h).symm)

theorem State.byteAt_of_mem_eq {s t : State} (h : t.mem = s.mem) (b : Addr) : t.byteAt b = s.byteAt b := by
  rw [State.byteAt, State.byteAt, h]

/-- A byte of memory after a push (R60). -/
theorem State.byteAt_push (s : State) (v : Byte) (b : Addr) :
    (s.push v).byteAt b = if b = stack s.sp then v else s.byteAt b := by
  rw [State.push_eq, State.byteAt_setSp, State.byteAt_write8, stackAddr_eq_stack]

/-- A push then a pull gives the byte back (R61). -/
theorem State.byteAt_push_pulled (s : State) (v : Byte) : (s.push v).byteAt (stackAddr (s.sp - 1 + 1)) = v := by
  rw [State.byteAt_push, sub_add_cancel, stackAddr_eq_stack, if_pos rfl]

/-! ### The trap's pushes -/

/-- The three pushes of a trap: the return address, high byte first, then P with bits 4 and 5 set (R243). -/
def State.pushTrap (s : State) : State := (s.pushWord (s.pc + 1)).push (s.p ||| 0x30)

/-- A byte of memory after the three pushes (R243). -/
theorem State.byteAt_pushTrap (s : State) (b : Addr) :
    s.pushTrap.byteAt b =
      if b = stack (s.sp - 2) then s.p ||| 0x30
      else if b = stack (s.sp - 1) then lowByte (s.pc + 1)
      else if b = stack s.sp then highByte (s.pc + 1) else s.byteAt b := by
  rw [State.pushTrap, State.byteAt_push, State.byteAt_pushWord, s.pushWord_eq_stack]

theorem State.byteAt_pushTrap_high (s : State) : s.pushTrap.byteAt (stack s.sp) = highByte (s.pc + 1) := by
  rw [State.byteAt_pushTrap, if_neg (stack_ne_stack_sub (by decide) _), if_neg (stack_ne_stack_sub (by decide) _),
    if_pos rfl]

theorem State.byteAt_pushTrap_low (s : State) : s.pushTrap.byteAt (stack (s.sp - 1)) = lowByte (s.pc + 1) := by
  rw [State.byteAt_pushTrap, ← sub_one_sub_one_byte, if_neg (stack_ne_stack_sub (by decide) _), if_pos rfl]

theorem State.byteAt_pushTrap_status (s : State) : s.pushTrap.byteAt (stack (s.sp - 2)) = s.p ||| 0x30 := by
  rw [State.byteAt_pushTrap, if_pos rfl]

theorem State.byteAt_pushTrap_other (s : State) {b : Addr} (hhigh : b ≠ stack s.sp) (hlow : b ≠ stack (s.sp - 1))
    (hstatus : b ≠ stack (s.sp - 2)) : s.pushTrap.byteAt b = s.byteAt b := by
  rw [State.byteAt_pushTrap, if_neg hstatus, if_neg hlow, if_neg hhigh]

/-- The pushes do not reach an address above the stack page. -/
theorem State.byteAt_pushTrap_of_le (s : State) {b : Addr} (h : 512 ≤ b.toNat) : s.pushTrap.byteAt b = s.byteAt b :=
  s.byteAt_pushTrap_other (ne_stack_of_le h _) (ne_stack_of_le h _) (ne_stack_of_le h _)

/-- BRK leaves memory as its three pushes do, sets I in P, and reads its vector (R243). -/
theorem exec_brk (s : State) :
    ∃ t, exec .brk s = .next t ∧ t.mem = s.pushTrap.mem ∧ t.p = setFlag s.p .i true ∧ t = { s with
      pc := joinBytes (s.byteAt 0xFFFF) (s.byteAt 0xFFFE)
      sp := s.sp - 3
      p := t.p
      mem := t.mem
      bus := s.bus ++ [.write (stack s.sp) (highByte (s.pc + 1)), .write (stack (s.sp - 1)) (lowByte (s.pc + 1)),
        .write (stack (s.sp - 2)) (s.p ||| 0x30), .read 0xFFFE, .read 0xFFFF]
      report := .executed 7 } := by
  have hvector (b : Addr) (h : 512 ≤ b.toNat) : s.byteAt b = Memory.get (trapPushes s) b.toNat :=
    (s.byteAt_pushTrap_of_le h).symm
  refine ⟨_, execBrk_eq s, rfl, rfl, ?_⟩
  rw [hvector 0xFFFF (by decide), hvector 0xFFFE (by decide)]
  simp only [sub_one_sub_one_byte, sub_two_sub_one_byte, stackAddr_eq_stack, List.append_assoc, List.cons_append,
    List.nil_append]
  rfl

/-- RTI, its stack addresses counted from SP (R244). -/
theorem exec_rti_eq (s : State) :
    exec .rti s = .next { s with
      p := s.byteAt (stack (s.sp + 1))
      pc := joinBytes (s.byteAt (stack (s.sp + 3))) (s.byteAt (stack (s.sp + 2)))
      sp := s.sp + 3
      bus := s.bus ++ [.read (stack (s.sp + 1)), .read (stack (s.sp + 2)), .read (stack (s.sp + 3))]
      report := .executed 6 } := by
  have hexec : exec .rti s = _ := execRti_eq s
  rw [hexec]
  simp only [add_one_add_one_byte, add_two_add_one_byte, stackAddr_eq_stack, List.append_assoc, List.cons_append,
    List.nil_append]

end Sys2Proof.Machine

namespace Sys2Proof.Claims

open Sys2Proof.Machine

/-! ### Pulls, the trap and the return from it -/

/-- Settles O38: the pulled byte goes to A with N and Z, or to P whole. -/
theorem pullsReadTheStack : Obligations.PullsReadTheStack := by
  intro s
  have hpla := execPla_eq s
  have hplp := execPlp_eq s
  rw [stackAddr_eq_stack, add_one_eq_ofNat] at hpla hplp
  exact ⟨⟨rfl, _, hpla, rfl, setNZ_becomes _ _⟩, rfl, _, hplp, rfl⟩

/-- Settles O44: the trap's bytes stand at three different addresses, none of them the vector's. -/
theorem brkTakesTheTrap : Obligations.BrkTakesTheTrap := by
  intro s
  obtain ⟨t, hexec, hmem, hp, hstate⟩ := exec_brk s
  rw [ofNat_toNat_add_one]
  refine ⟨rfl, t, hexec, hstate, hp ▸ setFlag_becomes s.p .i true, ?_⟩
  simp only [State.byteAt_of_mem_eq hmem]
  exact ⟨s.byteAt_pushTrap_high, s.byteAt_pushTrap_low, s.byteAt_pushTrap_status, fun _ => s.byteAt_pushTrap_other⟩

/-- Settles O45: three pulls. -/
theorem rtiRestoresPAndPc : Obligations.RtiRestoresPAndPc := fun s => ⟨rfl, _, exec_rti_eq s, rfl⟩

/-! ### Round trips -/

/-- Settles O47: RTS pulls the word JSR pushed, the address before PC. -/
theorem rtsUndoesJsr : Obligations.RtsUndoesJsr := by
  intro s a pc'
  obtain ⟨-, t, hjsr, ht, hhigh, hlow, -⟩ := jsrPushesReturnAddress s a
  obtain ⟨-, u, hrts, hu⟩ := rtsPullsPc { t with pc := pc' }
  have hsp : t.sp = s.sp - 2 := congrArg State.sp ht
  have hpc : u.pc = BitVec.ofNat 16
      ((t.byteAt (stack (t.sp + 2))).toNat * 256 + (t.byteAt (stack (t.sp + 1))).toNat + 1) := congrArg State.pc hu
  have husp : u.sp = t.sp + 2 := congrArg State.sp hu
  refine ⟨t, u, hjsr, hrts, ?_, by rw [husp, hsp, sub_add_cancel]⟩
  rw [hpc, hsp, sub_add_cancel, sub_two_add_one_byte, hhigh, hlow, ← joinBytes_add_one, joinBytes_high_low,
    ofNat_toNat_add_65535, sub_add_cancel]

/-- Settles O48: the byte pushed stands where the pull reads it. -/
theorem pullUndoesPush : Obligations.PullUndoesPush := by
  intro s v pc'
  exact ⟨_, _, _, _, execPha_eq s, execPla_eq _, s.byteAt_push_pulled s.a, sub_add_cancel s.sp 1,
    execPhp_eq s, execPlp_eq _, s.byteAt_push_pulled s.p, sub_add_cancel s.sp 1⟩

/-- Settles O49: RTI pulls the three bytes BRK pushed. -/
theorem rtiUndoesBrk : Obligations.RtiUndoesBrk := by
  intro s pc'
  obtain ⟨-, t, hbrk, ht, -, hhigh, hlow, hstatus, -⟩ := brkTakesTheTrap s
  obtain ⟨-, u, hrti, hu⟩ := rtiRestoresPAndPc { t with pc := pc' }
  have hsp : t.sp = s.sp - 3 := congrArg State.sp ht
  have hp : u.p = t.byteAt (stack (t.sp + 1)) := congrArg State.p hu
  have hpc : u.pc = joinBytes (t.byteAt (stack (t.sp + 3))) (t.byteAt (stack (t.sp + 2))) := congrArg State.pc hu
  have husp : u.sp = t.sp + 3 := congrArg State.sp hu
  refine ⟨t, u, hbrk, hrti, ?_, by rw [husp, hsp, sub_add_cancel], ?_⟩
  · rw [hpc, hsp, sub_add_cancel, sub_three_add_two_byte, hhigh, hlow, joinBytes_high_low, ofNat_toNat_add_one]
  · rw [hp, hsp, sub_three_add_one_byte, hstatus]

end Sys2Proof.Claims
end

section
/-!
PROOFS. The meaning of every instruction, said once: the shared operation it runs, with what the row of R85 and the
rules say of that instruction. A claim about all instructions splits on this and not on the 151 constructors.
-/

namespace Sys2Proof.Machine

/-! ### Operands and rows -/

/-- The mode of an operand (R81). -/
def Operand.mode : Operand → Mode
  | .imm _ => .imm
  | .zp _ => .zp
  | .zpx _ => .zpx
  | .zpy _ => .zpy
  | .abs _ => .abs
  | .absx _ => .absx
  | .absy _ => .absy
  | .indx _ => .indx
  | .indy _ => .indy

/-- The bytes of an operand (R82). -/
def Operand.bytes : Operand → List Byte
  | .imm v | .zp v | .zpx v | .zpy v | .indx v | .indy v => [v]
  | .abs a | .absx a | .absy a => [lowByte a, highByte a]

/-- The page-cross column of an instruction that reads the operand (R107). -/
def Operand.readCross : Operand → CrossRule
  | .absx _ | .absy _ | .indy _ => .reads
  | _ => .never

/-- The page-cross column of an instruction that stores to the operand (R107). -/
def Operand.writeCross : Operand → CrossRule
  | .absx _ | .absy _ | .indy _ => .allIndexedOnly
  | _ => .never

/-- The cycles the row of an instruction gives it (R109). -/
def cyclesOf (i : Instr) (s : State) : Nat := (rowOf i).elim 0 (tableCycles · i s)

/-- The instruction is encoded as a byte with the operand after it, and the row of that byte in R85 is so. -/
def Listed (i : Instr) (mnemonic : String) (mode : Mode) (base : Nat) (cross : CrossRule)
    (operand : List Byte) : Prop :=
  ∃ op b, encode i = op :: operand ∧ lookupRow op = some ⟨op, mnemonic, mode, base, cross, b⟩

/-- The instruction is listed in the read class with the operand, and stores nothing. -/
structure IsRead (i : Instr) (mnemonic : String) (base : Nat) (m : Operand) : Prop where
  listed : Listed i mnemonic m.mode base m.readCross m.bytes
  stored : ∀ s, storedAddrs s i = []

/-- The instruction is listed in the store class with the operand, and stores to it. -/
structure IsWrite (i : Instr) (mnemonic : String) (base : Nat) (m : Operand) : Prop where
  listed : Listed i mnemonic m.mode base m.writeCross m.bytes
  stored : ∀ s, storedAddrs s i = [(m.resolve s).ea]

/-- The instruction is listed with a fixed number of cycles and no operand, and stores nothing. -/
structure IsPlain (i : Instr) (mnemonic : String) (base : Nat) : Prop where
  listed : ∃ mode, Listed i mnemonic mode base .never []
  stored : ∀ s, storedAddrs s i = []

/-- The instruction is listed as the branch on flag `f` having the value `want`, and stores nothing. -/
structure IsBranch (i : Instr) (f : Flag) (want : Bool) (base : Nat) (d : Byte) : Prop where
  listed : ∃ mnemonic, Listed i mnemonic .rel base .branch [d] ∧ branchTest mnemonic = some (f, want)
  stored : ∀ s, storedAddrs s i = []

/-! ### Meanings -/

/-- The mnemonic that loads a register. -/
def loadMnemonic : Reg → String
  | .a => "LDA"
  | .x => "LDX"
  | .y => "LDY"

/-- The mnemonics that step a register. -/
def stepMnemonics : Reg → List String
  | .a => []
  | .x => ["INX", "DEX"]
  | .y => ["INY", "DEY"]

/-- The mnemonics that copy a register to another, by the one written. -/
def transferMnemonics : Reg → List String
  | .a => ["TXA", "TYA"]
  | .x => ["TAX"]
  | .y => ["TAY"]

/-- The mnemonics that write one flag. -/
def flagMnemonics : Flag → List String
  | .c => ["CLC", "SEC"]
  | .i => ["CLI", "SEI"]
  | .d => ["CLD", "SED"]
  | .v => ["CLV"]
  | .z | .n => []

/-- What the meanings of the instructions are: a shared operation on the arguments the instruction fixes, or the
meaning of an instruction that shares none. -/
inductive Meaning : Instr → (State → Result) → Prop
  | load {i} (r : Reg) (base : Nat) (m : Operand) (listed : IsRead i (loadMnemonic r) base m) :
      Meaning i (loadReg r base m)
  | store {i mn} (r : Reg) (base : Nat) (m : Operand) (listed : IsWrite i mn base m) : Meaning i (storeReg r base m)
  | logic {i mn} (f : Byte → Byte → Byte) (base : Nat) (m : Operand) (listed : IsRead i mn base m)
      (hmn : mn ∈ ["AND", "ORA", "EOR"]) : Meaning i (logic f base m)
  | bitTest {i} (base : Nat) (m : Operand) (listed : IsRead i "BIT" base m) : Meaning i (bitTest base m)
  | accumulate {i mn} (binary decimal : Byte → Byte → Bool → AluOut) (base : Nat) (m : Operand)
      (listed : IsRead i mn base m) (hmn : mn ∈ ["ADC", "SBC"]) : Meaning i (accumulate binary decimal base m)
  | compare {i mn} (r : Reg) (base : Nat) (m : Operand) (listed : IsRead i mn base m)
      (hmn : mn ∈ ["CMP", "CPX", "CPY"]) : Meaning i (compareReg r base m)
  | modify {i mn} (f : Byte → Byte) (base : Nat) (m : Operand) (listed : IsWrite i mn base m)
      (hmn : mn ∈ ["INC", "DEC"]) : Meaning i (modify f base m)
  | stepReg {i mn} (r : Reg) (f : Byte → Byte) (base : Nat) (listed : IsPlain i mn base)
      (hmn : mn ∈ stepMnemonics r) : Meaning i (stepReg r f base)
  | shiftAcc {i mn} (f : Byte → Bool → Shifted) (base : Nat) (listed : IsPlain i mn base)
      (hmn : mn ∈ ["ASL", "LSR", "ROL", "ROR"])
      (hi : i ∈ [.aslAcc, .lsrAcc, .rolAcc, .rorAcc]) : Meaning i (shiftAcc f base)
  | shiftMem {i mn} (f : Byte → Bool → Shifted) (base : Nat) (m : Operand) (listed : IsWrite i mn base m)
      (hmn : mn ∈ ["ASL", "LSR", "ROL", "ROR"]) : Meaning i (shiftMem f base m)
  | branch {i} (f : Flag) (want : Bool) (base : Nat) (d : Byte) (taken : State → Bool)
      (listed : IsBranch i f want base d) (htaken : ∀ s, taken s = true ↔ s.p.getLsbD f.bit = want) :
      Meaning i (fun s => branch (taken s) base d s)
  | transfer {i mn} (src dst : Reg) (base : Nat) (listed : IsPlain i mn base)
      (hmn : mn ∈ transferMnemonics dst) : Meaning i (transfer src dst base)
  | writeFlag {i mn} (f : Flag) (c : Bool) (base : Nat) (listed : IsPlain i mn base)
      (hmn : mn ∈ flagMnemonics f) : Meaning i (writeFlag f c base)
  | pha : Meaning .pha execPha
  | php : Meaning .php execPhp
  | pla : Meaning .pla execPla
  | plp : Meaning .plp execPlp
  | tsx : Meaning .tsx execTsx
  | txs : Meaning .txs execTxs
  | jmpAbs (a : Addr) : Meaning (.jmpAbs a) (execJmpAbs a)
  | jmpInd (a : Addr) : Meaning (.jmpInd a) (execJmpInd a)
  | jsr (a : Addr) : Meaning (.jsr a) (execJsr a)
  | rts : Meaning .rts execRts
  | brk : Meaning .brk execBrk
  | rti : Meaning .rti execRti
  | nop : Meaning .nop execNop

/-- The dispatch gives every instruction its meaning (R103, R105). -/
theorem exec_meaning (i : Instr) : Meaning i (exec i) := by
  cases i with
  | ldaImm | ldaZp | ldaZpx | ldaAbs | ldaAbsx | ldaAbsy | ldaIndx | ldaIndy =>
    exact .load .a _ _ ⟨⟨_, _, rfl, rfl⟩, fun _ => rfl⟩
  | ldxImm | ldxZp | ldxZpy | ldxAbs | ldxAbsy => exact .load .x _ _ ⟨⟨_, _, rfl, rfl⟩, fun _ => rfl⟩
  | ldyImm | ldyZp | ldyZpx | ldyAbs | ldyAbsx => exact .load .y _ _ ⟨⟨_, _, rfl, rfl⟩, fun _ => rfl⟩
  | staZp | staZpx | staAbs | staAbsx | staAbsy | staIndx | staIndy =>
    exact .store .a _ _ ⟨⟨_, _, rfl, rfl⟩, fun _ => rfl⟩
  | stxZp | stxZpy | stxAbs => exact .store .x _ _ ⟨⟨_, _, rfl, rfl⟩, fun _ => rfl⟩
  | styZp | styZpx | styAbs => exact .store .y _ _ ⟨⟨_, _, rfl, rfl⟩, fun _ => rfl⟩
  | andImm | andZp | andZpx | andAbs | andAbsx | andAbsy | andIndx | andIndy
  | oraImm | oraZp | oraZpx | oraAbs | oraAbsx | oraAbsy | oraIndx | oraIndy
  | eorImm | eorZp | eorZpx | eorAbs | eorAbsx | eorAbsy | eorIndx | eorIndy =>
    exact .logic _ _ _ ⟨⟨_, _, rfl, rfl⟩, fun _ => rfl⟩ (by decide)
  | bitZp | bitAbs => exact .bitTest _ _ ⟨⟨_, _, rfl, rfl⟩, fun _ => rfl⟩
  | adcImm | adcZp | adcZpx | adcAbs | adcAbsx | adcAbsy | adcIndx | adcIndy
  | sbcImm | sbcZp | sbcZpx | sbcAbs | sbcAbsx | sbcAbsy | sbcIndx | sbcIndy =>
    exact .accumulate _ _ _ _ ⟨⟨_, _, rfl, rfl⟩, fun _ => rfl⟩ (by decide)
  | cmpImm | cmpZp | cmpZpx | cmpAbs | cmpAbsx | cmpAbsy | cmpIndx | cmpIndy
  | cpxImm | cpxZp | cpxAbs | cpyImm | cpyZp | cpyAbs =>
    exact .compare _ _ _ ⟨⟨_, _, rfl, rfl⟩, fun _ => rfl⟩ (by decide)
  | incZp | incZpx | incAbs | incAbsx =>
    exact .modify (· + 1) _ _ ⟨⟨_, _, rfl, rfl⟩, fun _ => rfl⟩ (by decide)
  | decZp | decZpx | decAbs | decAbsx =>
    exact .modify (· - 1) _ _ ⟨⟨_, _, rfl, rfl⟩, fun _ => rfl⟩ (by decide)
  | inx => exact .stepReg .x (· + 1) _ ⟨⟨_, _, _, rfl, rfl⟩, fun _ => rfl⟩ (by decide)
  | iny => exact .stepReg .y (· + 1) _ ⟨⟨_, _, _, rfl, rfl⟩, fun _ => rfl⟩ (by decide)
  | dex => exact .stepReg .x (· - 1) _ ⟨⟨_, _, _, rfl, rfl⟩, fun _ => rfl⟩ (by decide)
  | dey => exact .stepReg .y (· - 1) _ ⟨⟨_, _, _, rfl, rfl⟩, fun _ => rfl⟩ (by decide)
  | aslAcc | lsrAcc | rolAcc | rorAcc =>
    exact .shiftAcc _ _ ⟨⟨_, _, _, rfl, rfl⟩, fun _ => rfl⟩ (by decide) (by decide)
  | aslZp | aslZpx | aslAbs | aslAbsx | lsrZp | lsrZpx | lsrAbs | lsrAbsx
  | rolZp | rolZpx | rolAbs | rolAbsx | rorZp | rorZpx | rorAbs | rorAbsx =>
    exact .shiftMem _ _ _ ⟨⟨_, _, rfl, rfl⟩, fun _ => rfl⟩ (by decide)
  | bcs | beq | bmi | bvs =>
    exact .branch _ true _ _ _ ⟨⟨_, ⟨_, _, rfl, rfl⟩, rfl⟩, fun _ => rfl⟩ fun s => Claims.flag_iff_set s _
  | bcc | bne | bpl | bvc =>
    exact .branch _ false _ _ _ ⟨⟨_, ⟨_, _, rfl, rfl⟩, rfl⟩, fun _ => rfl⟩ fun s => Claims.not_flag_iff_clear s _
  | tax | tay | txa | tya => exact .transfer _ _ _ ⟨⟨_, _, _, rfl, rfl⟩, fun _ => rfl⟩ (by decide)
  | clc | sec | cli | sei | cld | sed | clv =>
    exact .writeFlag _ _ _ ⟨⟨_, _, _, rfl, rfl⟩, fun _ => rfl⟩ (by decide)
  | pha => exact .pha
  | php => exact .php
  | pla => exact .pla
  | plp => exact .plp
  | tsx => exact .tsx
  | txs => exact .txs
  | jmpAbs a => exact .jmpAbs a
  | jmpInd a => exact .jmpInd a
  | jsr a => exact .jsr a
  | rts => exact .rts
  | brk => exact .brk
  | rti => exact .rti
  | nop => exact .nop

end Sys2Proof.Machine
end

section
/-!
PROOFS. The cycles of every instruction (R106 to R109), from its row alone.
-/

namespace Sys2Proof.Machine

/-! ### Pages -/

/-- The page-cross signal of an operand is that of its mode and bytes (R133). -/
theorem crosses_operand (m : Operand) (s : State) : crosses m.mode m.bytes s = (m.resolve s).extra := by
  have hcross (base final : Addr) :
      decide (base.toNat / 256 ≠ final.toNat / 256) = pageCross base final := by
    rw [pageCross_eq, decide_not]
  cases m with
  | absx a =>
    simp only [crosses, crossing, Operand.mode, Operand.bytes, joinBytes_high_low, hcross]
    rfl
  | absy a =>
    simp only [crosses, crossing, Operand.mode, Operand.bytes, joinBytes_high_low, hcross]
    rfl
  | indy z =>
    simp only [crosses, crossing, Operand.mode, Operand.bytes, hcross]
    rfl
  | _ => rfl

/-- The page-cross signal of a branch is that of its target (R133, R201). -/
theorem crosses_rel (d : Byte) (s : State) : crosses .rel [d] s = pageCross s.pc (relTarget d s) := by
  rw [pageCross_eq, ← decide_not]
  rfl

/-! ### Rows -/

section

variable {row : Row} (i : Instr) (s : State)

theorem tableCycles_never (h : row.cross = .never) : tableCycles row i s = row.baseCycles := by
  simp only [tableCycles, h]

theorem tableCycles_reads (h : row.cross = .reads) :
    tableCycles row i s = readCycles row.baseCycles (crosses row.mode (encode i).tail s) := by
  simp only [tableCycles, h]
  cases crosses row.mode (encode i).tail s <;> rfl

theorem tableCycles_allIndexedOnly (h : row.cross = .allIndexedOnly) :
    tableCycles row i s = writeCycles s.params row.baseCycles (crosses row.mode (encode i).tail s) := by
  simp only [tableCycles, h, writeCycles]
  cases crosses row.mode (encode i).tail s <;> cases s.params.pageCrossPolicy <;> rfl

theorem tableCycles_branch {f : Flag} {want : Bool} (h : row.cross = .branch)
    (htest : branchTest row.mnemonic = some (f, want)) :
    tableCycles row i s =
      if s.p.getLsbD f.bit = want then row.baseCycles + 1 + (crosses row.mode (encode i).tail s).toNat
      else row.baseCycles := by
  simp only [tableCycles, h, htest]
  split
  · rw [Nat.add_assoc]
    cases crosses row.mode (encode i).tail s <;> rfl
  · rfl

end

section

variable {i : Instr} {mnemonic : String} {mode : Mode} {base : Nat} {cross : CrossRule} {operand : List Byte}

/-- The row of a listed instruction, and its cycles from it. -/
theorem Listed.row (h : Listed i mnemonic mode base cross operand) :
    ∃ row, rowOf i = some row ∧ row.mnemonic = mnemonic ∧ row.mode = mode ∧ row.baseCycles = base ∧ row.cross = cross
      ∧ (encode i).tail = operand ∧ ∀ s, cyclesOf i s = tableCycles row i s := by
  obtain ⟨op, b, hencode, hlookup⟩ := h
  have hrow : rowOf i = some ⟨op, mnemonic, mode, base, cross, b⟩ := by
    rw [rowOf, opcodeOf, hencode]
    exact hlookup
  refine ⟨_, hrow, rfl, rfl, rfl, rfl, ?_, fun s => ?_⟩
  · rw [hencode, List.tail_cons]
  · rw [cyclesOf, hrow, Option.elim_some]

theorem Listed.mnemonicOf_eq (h : Listed i mnemonic mode base cross operand) : mnemonicOf i = mnemonic := by
  obtain ⟨row, hrow, hmn, -⟩ := h.row
  rw [mnemonicOf, hrow]
  exact hmn

theorem Listed.cyclesOf_never (h : Listed i mnemonic mode base .never operand) (s : State) : cyclesOf i s = base := by
  obtain ⟨row, -, -, -, rfl, hcross, -, hcycles⟩ := h.row
  rw [hcycles, tableCycles_never i s hcross]

theorem Listed.cyclesOf_reads (h : Listed i mnemonic mode base .reads operand) (s : State) :
    cyclesOf i s = readCycles base (crosses mode operand s) := by
  obtain ⟨row, -, -, rfl, rfl, hcross, rfl, hcycles⟩ := h.row
  rw [hcycles, tableCycles_reads i s hcross]

theorem Listed.cyclesOf_allIndexedOnly (h : Listed i mnemonic mode base .allIndexedOnly operand) (s : State) :
    cyclesOf i s = writeCycles s.params base (crosses mode operand s) := by
  obtain ⟨row, -, -, rfl, rfl, hcross, rfl, hcycles⟩ := h.row
  rw [hcycles, tableCycles_allIndexedOnly i s hcross]

/-- The read class pays for a page cross under both policies (R107). -/
theorem IsRead.cyclesOf_eq {m : Operand} (h : IsRead i mnemonic base m) (s : State) :
    cyclesOf i s = readCycles base (m.resolve s).extra := by
  cases m with
  | absx | absy | indy => rw [h.listed.cyclesOf_reads, crosses_operand]
  | _ => exact h.listed.cyclesOf_never s

/-- The store class pays for a page cross only under `AllIndexed` (R107). -/
theorem IsWrite.cyclesOf_eq {m : Operand} (h : IsWrite i mnemonic base m) (s : State) :
    cyclesOf i s = writeCycles s.params base (m.resolve s).extra := by
  cases m with
  | absx | absy | indy => rw [h.listed.cyclesOf_allIndexedOnly, crosses_operand]
  | _ => exact h.listed.cyclesOf_never s

theorem IsPlain.cyclesOf_eq (h : IsPlain i mnemonic base) (s : State) : cyclesOf i s = base := by
  obtain ⟨mode, hlisted⟩ := h.listed
  exact hlisted.cyclesOf_never s

theorem IsPlain.mnemonicOf_eq (h : IsPlain i mnemonic base) : mnemonicOf i = mnemonic := by
  obtain ⟨mode, hlisted⟩ := h.listed
  exact hlisted.mnemonicOf_eq

/-- A taken branch costs one cycle more, and one more on a page cross (R201). -/
theorem IsBranch.cyclesOf_eq {f : Flag} {want taken : Bool} {d : Byte} (h : IsBranch i f want base d) (s : State)
    (htaken : taken = true ↔ s.p.getLsbD f.bit = want) :
    cyclesOf i s = if taken then base + 1 + (pageCross s.pc (relTarget d s)).toNat else base := by
  obtain ⟨mnemonic, hlisted, htest⟩ := h.listed
  obtain ⟨row, -, rfl, hmode, rfl, hcross, hoperand, hcycles⟩ := hlisted.row
  rw [hcycles, tableCycles_branch i s hcross htest, hmode, hoperand, crosses_rel]
  simp only [htaken]

end

end Sys2Proof.Machine
end

section
/-!
PROOFS. What an instruction makes of a state, said once for all of them: the registers, P, PC, the bytes stored and the
memory calls, none of which depends on the interrupt requests or the page-cross policy, and the cycles its row gives.
-/

namespace Sys2Proof.Machine

/-! ### What an instruction does not depend on -/

/-- The fields of the state that decide neither state, memory nor control flow: the interrupt requests (D9) and the
page-cross policy (R106). -/
structure Setting where
  pendingNmi : Bool
  pendingIrq : Bool
  policy : Config.PageCrossPolicy

/-- The setting of a state. -/
def State.setting (s : State) : Setting := ⟨s.pendingNmi, s.pendingIrq, s.params.pageCrossPolicy⟩

/-- The state in another setting. -/
def State.withSetting (s : State) (x : Setting) : State :=
  { s with
    pendingNmi := x.pendingNmi
    pendingIrq := x.pendingIrq
    params := { s.params with pageCrossPolicy := x.policy } }

theorem State.withSetting_setting (s : State) : s.withSetting s.setting = s := rfl

section

variable (m : Operand) (s : State) (x : Setting)

@[simp] theorem Operand.resolve_ea_withSetting : (m.resolve (s.withSetting x)).ea = (m.resolve s).ea := by
  cases m <;> rfl

@[simp] theorem operandValue_withSetting : operandValue (s.withSetting x) m = operandValue s m := by
  cases m <;> rfl

@[simp] theorem pointerReads_withSetting : pointerReads (s.withSetting x) m = pointerReads s m := by
  cases m <;> rfl

@[simp] theorem operandReads_withSetting : operandReads (s.withSetting x) m = operandReads s m := by
  cases m <;> rfl

end

/-! ### Effects -/

/-- Bytes stored one after another. -/
def Memory.storeAll (m : Memory) : List (Addr × Byte) → Memory
  | [] => m
  | (addr, v) :: rest => Memory.storeAll (Memory.set m addr.toNat v) rest

/-- What an instruction writes: the registers, the bytes stored and the memory calls. -/
structure Effect where
  a : Byte
  x : Byte
  y : Byte
  sp : Byte
  p : Byte
  pc : Addr
  stores : List (Addr × Byte)
  calls : List Access

/-- The effect that leaves the registers as a state has them, stores nothing and calls nothing. -/
def Effect.keep (s : State) : Effect := ⟨s.a, s.x, s.y, s.sp, s.p, s.pc, [], []⟩

/-- The state after an effect and the cycles reported. -/
def Effect.apply (e : Effect) (cycles : Nat) (s : State) : State :=
  { s with
    a := e.a
    x := e.x
    y := e.y
    sp := e.sp
    p := e.p
    pc := e.pc
    mem := Memory.storeAll s.mem e.stores
    bus := s.bus ++ e.calls
    report := .executed cycles }

/-- An effect that stores and calls nothing changes the registers alone. -/
theorem Effect.apply_of_quiet {e : Effect} {cycles : Nat} {s : State} (hstores : e.stores = [])
    (hcalls : e.calls = []) :
    e.apply cycles s = { s with
      a := e.a, x := e.x, y := e.y, sp := e.sp, p := e.p, pc := e.pc, report := .executed cycles } := by
  rw [Effect.apply, hstores, hcalls, List.append_nil]
  rfl

/-- The operation has the effect on the state, in every setting of it: it stores to the addresses the instruction
`i` stores to, and reports the cycles of its row. -/
def HasEffect (i : Instr) (op : State → Result) (s : State) (e : Effect) : Prop :=
  e.stores.map Prod.fst = storedAddrs s i
    ∧ ∀ x, op (s.withSetting x) = .next (e.apply (cyclesOf i (s.withSetting x)) (s.withSetting x))

/-- The operation is refused in the state, in every setting of it (R173). -/
def Refuses (i : Instr) (op : State → Result) (s : State) : Prop :=
  mnemonicOf i ∈ ["ADC", "SBC"] ∧ s.flag .d = true ∧ s.params.decimalMode = .refuse
    ∧ ∀ x, op (s.withSetting x) = .refused .decimalMode

section

variable {i : Instr} {mn : String} (s : State)

theorem hasEffect_loadReg {r : Reg} {base : Nat} {m : Operand} (h : IsRead i mn base m) :
    HasEffect i (loadReg r base m) s { Effect.keep (s.setReg r (operandValue s m)) with
      p := setNZ s.p (operandValue s m), calls := operandReads s m } := by
  refine ⟨(h.stored s).symm, fun x => ?_⟩
  rw [loadReg_eq, h.cyclesOf_eq, operandValue_withSetting, operandReads_withSetting]
  cases r <;> rfl

theorem hasEffect_storeReg {r : Reg} {base : Nat} {m : Operand} (h : IsWrite i mn base m) :
    HasEffect i (storeReg r base m) s { Effect.keep s with
      stores := [((m.resolve s).ea, s.reg r)]
      calls := pointerReads s m ++ [.write (m.resolve s).ea (s.reg r)] } := by
  refine ⟨(h.stored s).symm, fun x => ?_⟩
  rw [storeReg_eq, h.cyclesOf_eq, pointerReads_withSetting, List.append_assoc, Operand.resolve_ea_withSetting]
  cases r <;> rfl

theorem hasEffect_logic {f : Byte → Byte → Byte} {base : Nat} {m : Operand} (h : IsRead i mn base m) :
    HasEffect i (logic f base m) s { Effect.keep s with
      a := f s.a (operandValue s m), p := setNZ s.p (f s.a (operandValue s m)), calls := operandReads s m } := by
  refine ⟨(h.stored s).symm, fun x => ?_⟩
  rw [logic_eq, h.cyclesOf_eq, operandValue_withSetting, operandReads_withSetting]
  rfl

theorem hasEffect_bitTest {base : Nat} {m : Operand} (h : IsRead i mn base m) :
    HasEffect i (bitTest base m) s { Effect.keep s with
      p := bitFlags s.p s.a (operandValue s m), calls := operandReads s m } := by
  refine ⟨(h.stored s).symm, fun x => ?_⟩
  rw [bitTest_eq, h.cyclesOf_eq, operandValue_withSetting, operandReads_withSetting]
  rfl

theorem refuses_or_hasEffect_accumulate {binary decimal : Byte → Byte → Bool → AluOut} {base : Nat} {m : Operand}
    (h : IsRead i mn base m) (hmn : mn ∈ ["ADC", "SBC"]) :
    Refuses i (accumulate binary decimal base m) s ∨ ∃ o, HasEffect i (accumulate binary decimal base m) s
      { Effect.keep s with a := o.r, p := aluFlags s.p o, calls := operandReads s m } := by
  by_cases hstop : s.flag .d = true ∧ s.params.decimalMode = .refuse
  · refine .inl ⟨h.listed.mnemonicOf_eq ▸ hmn, hstop.1, hstop.2, fun x => ?_⟩
    rw [accumulate_eq]
    exact if_pos hstop
  · refine .inr ⟨(if s.flag .d = true ∧ s.params.decimalMode = .nmosBcd then decimal else binary)
      s.a (operandValue s m) (s.flag .c), (h.stored s).symm, fun x => ?_⟩
    rw [accumulate_eq, accumulated, h.cyclesOf_eq, operandValue_withSetting, operandReads_withSetting]
    exact if_neg hstop

theorem hasEffect_compareReg {r : Reg} {base : Nat} {m : Operand} (h : IsRead i mn base m) :
    HasEffect i (compareReg r base m) s { Effect.keep s with
      p := compareFlags s.p (s.reg r) (operandValue s m), calls := operandReads s m } := by
  refine ⟨(h.stored s).symm, fun x => ?_⟩
  rw [compareReg_eq, h.cyclesOf_eq, operandValue_withSetting, operandReads_withSetting]
  cases r <;> rfl

theorem hasEffect_modify {f : Byte → Byte} {base : Nat} {m : Operand} (h : IsWrite i mn base m) :
    HasEffect i (modify f base m) s { Effect.keep s with
      p := setNZ s.p (f (s.byteAt (m.resolve s).ea))
      stores := [((m.resolve s).ea, f (s.byteAt (m.resolve s).ea))]
      calls := pointerReads s m
        ++ [.read (m.resolve s).ea, .write (m.resolve s).ea (f (s.byteAt (m.resolve s).ea))] } := by
  refine ⟨(h.stored s).symm, fun x => ?_⟩
  rw [modify_eq, h.cyclesOf_eq, pointerReads_withSetting, List.append_assoc, List.append_assoc,
    Operand.resolve_ea_withSetting]
  rfl

theorem hasEffect_stepReg {r : Reg} {f : Byte → Byte} {base : Nat} (h : IsPlain i mn base) :
    HasEffect i (stepReg r f base) s { Effect.keep (s.setReg r (f (s.reg r))) with p := setNZ s.p (f (s.reg r)) } := by
  refine ⟨(h.stored s).symm, fun x => ?_⟩
  rw [stepReg_eq, h.cyclesOf_eq, Effect.apply_of_quiet (by cases r <;> rfl) rfl]
  cases r <;> rfl

theorem hasEffect_shiftAcc {f : Byte → Bool → Shifted} {base : Nat} (h : IsPlain i mn base) :
    HasEffect i (shiftAcc f base) s { Effect.keep s with
      a := (f s.a (s.flag .c)).r, p := shiftFlags s.p (f s.a (s.flag .c)) } := by
  refine ⟨(h.stored s).symm, fun x => ?_⟩
  rw [shiftAcc_eq, h.cyclesOf_eq, Effect.apply_of_quiet rfl rfl]
  rfl

theorem hasEffect_shiftMem {f : Byte → Bool → Shifted} {base : Nat} {m : Operand} (h : IsWrite i mn base m) :
    HasEffect i (shiftMem f base m) s { Effect.keep s with
      p := shiftFlags s.p (f (s.byteAt (m.resolve s).ea) (s.flag .c))
      stores := [((m.resolve s).ea, (f (s.byteAt (m.resolve s).ea) (s.flag .c)).r)]
      calls := pointerReads s m
        ++ [.read (m.resolve s).ea, .write (m.resolve s).ea (f (s.byteAt (m.resolve s).ea) (s.flag .c)).r] } := by
  refine ⟨(h.stored s).symm, fun x => ?_⟩
  rw [shiftMem_eq, h.cyclesOf_eq, pointerReads_withSetting, List.append_assoc, List.append_assoc,
    Operand.resolve_ea_withSetting]
  rfl

theorem hasEffect_branch {f : Flag} {want : Bool} {base : Nat} {d : Byte} {taken : State → Bool}
    (h : IsBranch i f want base d) (htaken : ∀ s, taken s = true ↔ s.p.getLsbD f.bit = want) :
    HasEffect i (fun s => branch (taken s) base d s) s
      { Effect.keep s with pc := if taken s then relTarget d s else s.pc } := by
  refine ⟨(h.stored s).symm, fun x => ?_⟩
  have hsame : taken (s.withSetting x) = taken s := Bool.eq_iff_iff.mpr ((htaken _).trans (htaken s).symm)
  show branch (taken (s.withSetting x)) base d _ = _
  rw [branch_eq, h.cyclesOf_eq _ (htaken _), hsame, Effect.apply_of_quiet rfl rfl]
  rfl

theorem hasEffect_transfer {src dst : Reg} {base : Nat} (h : IsPlain i mn base) :
    HasEffect i (transfer src dst base) s
      { Effect.keep (s.setReg dst (s.reg src)) with p := setNZ s.p (s.reg src) } := by
  refine ⟨(h.stored s).symm, fun x => ?_⟩
  rw [transfer_eq, h.cyclesOf_eq, Effect.apply_of_quiet rfl rfl]
  cases dst <;> cases src <;> rfl

theorem hasEffect_writeFlag {f : Flag} {c : Bool} {base : Nat} (h : IsPlain i mn base) :
    HasEffect i (writeFlag f c base) s { Effect.keep s with p := setFlag s.p f c } := by
  refine ⟨(h.stored s).symm, fun x => ?_⟩
  rw [writeFlag_eq, h.cyclesOf_eq, Effect.apply_of_quiet rfl rfl]
  rfl

theorem hasEffect_pha : HasEffect .pha execPha s { Effect.keep s with
    sp := s.sp - 1, stores := [(stackAddr s.sp, s.a)], calls := [.write (stackAddr s.sp) s.a] } :=
  ⟨rfl, fun _ => rfl⟩

theorem hasEffect_php : HasEffect .php execPhp s { Effect.keep s with
    sp := s.sp - 1, stores := [(stackAddr s.sp, s.p)], calls := [.write (stackAddr s.sp) s.p] } :=
  ⟨rfl, fun _ => rfl⟩

theorem hasEffect_pla : HasEffect .pla execPla s { Effect.keep s with
    a := s.byteAt (stackAddr (s.sp + 1))
    sp := s.sp + 1
    p := setNZ s.p (s.byteAt (stackAddr (s.sp + 1)))
    calls := [.read (stackAddr (s.sp + 1))] } :=
  ⟨rfl, fun _ => rfl⟩

theorem hasEffect_plp : HasEffect .plp execPlp s { Effect.keep s with
    sp := s.sp + 1, p := s.byteAt (stackAddr (s.sp + 1)), calls := [.read (stackAddr (s.sp + 1))] } :=
  ⟨rfl, fun _ => rfl⟩

theorem hasEffect_tsx : HasEffect .tsx execTsx s { Effect.keep s with
    x := s.sp, p := if s.params.tsxSetsNz then setNZ s.p s.sp else s.p } := by
  refine ⟨rfl, fun x => ?_⟩
  rw [execTsx_eq, Effect.apply_of_quiet rfl rfl]
  rfl

theorem hasEffect_txs : HasEffect .txs execTxs s { Effect.keep s with sp := s.x } := by
  refine ⟨rfl, fun x => ?_⟩
  rw [execTxs_eq, Effect.apply_of_quiet rfl rfl]
  rfl

theorem hasEffect_jmpAbs (a : Addr) : HasEffect (.jmpAbs a) (execJmpAbs a) s { Effect.keep s with pc := a } := by
  refine ⟨rfl, fun x => ?_⟩
  rw [execJmpAbs, executed_eq, Effect.apply_of_quiet rfl rfl]
  rfl

theorem hasEffect_jmpInd (a : Addr) : HasEffect (.jmpInd a) (execJmpInd a) s { Effect.keep s with
    pc := joinBytes (s.byteAt (indirectHighAddr a s)) (s.byteAt a)
    calls := [.read a, .read (indirectHighAddr a s)] } := by
  refine ⟨rfl, fun x => ?_⟩
  rw [execJmpInd_eq, List.append_assoc]
  rfl

theorem hasEffect_jsr (a : Addr) : HasEffect (.jsr a) (execJsr a) s { Effect.keep s with
    pc := a
    sp := s.sp - 1 - 1
    stores := [(stackAddr s.sp, highByte (s.pc - 1)), (stackAddr (s.sp - 1), lowByte (s.pc - 1))]
    calls := [.write (stackAddr s.sp) (highByte (s.pc - 1)), .write (stackAddr (s.sp - 1)) (lowByte (s.pc - 1))] } := by
  refine ⟨rfl, fun x => ?_⟩
  rw [execJsr_eq, List.append_assoc]
  rfl

theorem hasEffect_rts : HasEffect .rts execRts s { Effect.keep s with
    pc := joinBytes (s.byteAt (stackAddr (s.sp + 1 + 1))) (s.byteAt (stackAddr (s.sp + 1))) + 1
    sp := s.sp + 1 + 1
    calls := [.read (stackAddr (s.sp + 1)), .read (stackAddr (s.sp + 1 + 1))] } := by
  refine ⟨rfl, fun x => ?_⟩
  rw [execRts_eq, List.append_assoc]
  rfl

theorem hasEffect_brk : HasEffect .brk execBrk s { Effect.keep s with
    pc := joinBytes (Memory.get (trapPushes s) 0xFFFF) (Memory.get (trapPushes s) 0xFFFE)
    sp := s.sp - 1 - 1 - 1
    p := setFlag s.p .i true
    stores := [(stackAddr s.sp, highByte (s.pc + 1)), (stackAddr (s.sp - 1), lowByte (s.pc + 1)),
      (stackAddr (s.sp - 1 - 1), s.p ||| 0x30)]
    calls := [.write (stackAddr s.sp) (highByte (s.pc + 1)), .write (stackAddr (s.sp - 1)) (lowByte (s.pc + 1)),
      .write (stackAddr (s.sp - 1 - 1)) (s.p ||| 0x30), .read 0xFFFE, .read 0xFFFF] } := by
  refine ⟨rfl, fun x => ?_⟩
  rw [execBrk_eq]
  simp only [List.append_assoc]
  rfl

theorem hasEffect_rti : HasEffect .rti execRti s { Effect.keep s with
    p := s.byteAt (stackAddr (s.sp + 1))
    pc := joinBytes (s.byteAt (stackAddr (s.sp + 1 + 1 + 1))) (s.byteAt (stackAddr (s.sp + 1 + 1)))
    sp := s.sp + 1 + 1 + 1
    calls := [.read (stackAddr (s.sp + 1)), .read (stackAddr (s.sp + 1 + 1)),
      .read (stackAddr (s.sp + 1 + 1 + 1))] } := by
  refine ⟨rfl, fun x => ?_⟩
  rw [execRti_eq]
  simp only [List.append_assoc]
  rfl

theorem hasEffect_nop : HasEffect .nop execNop s (Effect.keep s) := by
  refine ⟨rfl, fun x => ?_⟩
  rw [execNop, executed_eq, Effect.apply_of_quiet rfl rfl]
  rfl

end

end Sys2Proof.Machine
end

section
/-!
PROOFS. The writers the spec lists for each flag and register (R22 to R35), and the one theorem about all instructions:
every meaning has an effect that changes only what its instruction is listed for, or is refused.
-/

namespace Sys2Proof.Machine

/-! ### The lists -/

/-- The writers of N and Z (R34, R35). -/
def nzWriters : List String :=
  ["LDA", "LDX", "LDY", "AND", "ORA", "EOR", "BIT", "ADC", "SBC", "CMP", "CPX", "CPY", "INC", "DEC", "INX", "INY",
    "DEX", "DEY", "ASL", "LSR", "ROL", "ROR", "PLA", "TAX", "TAY", "TXA", "TYA", "TSX", "PLP", "RTI"]

/-- The writers of a bit of P (R29 to R35). -/
def bitWriters : Nat → List String
  | 0 => ["ADC", "SBC", "CMP", "CPX", "CPY", "ASL", "LSR", "ROL", "ROR", "CLC", "SEC", "PLP", "RTI"]
  | 1 | 7 => nzWriters
  | 2 => ["SEI", "CLI", "PLP", "RTI", "BRK"]
  | 3 => ["SED", "CLD", "PLP", "RTI"]
  | 6 => ["ADC", "SBC", "BIT", "CLV", "PLP", "RTI"]
  | _ => ["PLP", "RTI"]

/-- The writers of A, but for the accumulator shifts and rotates (R22). -/
def aWriters : List String := ["LDA", "AND", "ORA", "EOR", "ADC", "SBC", "PLA", "TXA", "TYA"]

/-- The writers of X (R23). -/
def xWriters : List String := ["LDX", "INX", "DEX", "TAX", "TSX"]

/-- The writers of Y (R23). -/
def yWriters : List String := ["LDY", "INY", "DEY", "TAY"]

/-- The writers of SP (R27). -/
def spWriters : List String := ["TXS", "PHA", "PHP", "PLA", "PLP", "JSR", "RTS", "BRK", "RTI"]

/-- The conditional branches (R202 to R209). -/
def branchMnemonics : List String := ["BCC", "BCS", "BEQ", "BNE", "BMI", "BPL", "BVC", "BVS"]

/-- The writers of PC (R26). -/
def pcWriters : List String :=
  ["BCC", "BCS", "BEQ", "BNE", "BMI", "BPL", "BVC", "BVS", "JMP", "JSR", "RTS", "BRK", "RTI"]

/-- P changes only in bits the instruction is a listed writer of. -/
def WritesFlags (i : Instr) (p p' : Byte) : Prop := ∀ k, p'.getLsbD k ≠ p.getLsbD k → mnemonicOf i ∈ bitWriters k

/-- Only listed writers of a register change it (R22, R23, R26, R27). -/
structure WritesRegisters (i : Instr) (s : State) (e : Effect) : Prop where
  a : e.a = s.a ∨ mnemonicOf i ∈ aWriters ∨ i ∈ [.aslAcc, .lsrAcc, .rolAcc, .rorAcc]
  x : e.x = s.x ∨ mnemonicOf i ∈ xWriters
  y : e.y = s.y ∨ mnemonicOf i ∈ yWriters
  sp : e.sp = s.sp ∨ mnemonicOf i ∈ spWriters
  pc : e.pc = s.pc ∨ mnemonicOf i ∈ pcWriters

theorem WritesFlags.refl (i : Instr) (p : Byte) : WritesFlags i p p := fun _ h => absurd rfl h

/-- An instruction that changes the flags `flags` only, and is a listed writer of each of them. -/
theorem WritesFlags.of_becomes {i : Instr} {p p' : Byte} {changes : List (Flag × Bool)} {flags : List Flag}
    {mnemonics : List String} (hmn : mnemonicOf i ∈ mnemonics) (h : FlagsBecome p p' changes)
    (hflags : changes.map Prod.fst = flags) (hlisted : ∀ f ∈ flags, mnemonics ⊆ bitWriters f.bit) :
    WritesFlags i p p' := by
  intro k hk
  by_contra hnot
  refine hk (h.2 k fun fc hfc hbit => hnot ?_)
  rw [← hbit]
  exact hlisted fc.1 (hflags ▸ List.mem_map_of_mem hfc) hmn

/-- A listed writer of N and Z that writes them alone. -/
theorem WritesFlags.of_setNZ {i : Instr} {mnemonics : List String} (hmn : mnemonicOf i ∈ mnemonics)
    (hlisted : mnemonics ⊆ nzWriters) (p v : Byte) : WritesFlags i p (setNZ p v) := by
  refine .of_becomes (flags := [.n, .z]) hmn (setNZ_becomes p v) rfl fun f hf => ?_
  fin_cases hf <;> exact hlisted

/-- PLP and RTI write all of P (R28). -/
theorem WritesFlags.of_all {i : Instr} (p p' : Byte) (hmn : mnemonicOf i ∈ ["PLP", "RTI"]) : WritesFlags i p p' := by
  intro k _
  have hall : ["PLP", "RTI"] ⊆ bitWriters k := by
    unfold bitWriters
    split <;> decide
  exact hall hmn

theorem branch_mnemonic {mn : String} {f : Flag} {want : Bool} (h : branchTest mn = some (f, want)) :
    mn ∈ branchMnemonics := by
  unfold branchTest at h
  split at h
  case h_9 => nomatch h
  all_goals decide

/-! ### All instructions -/

/-- The operation has an effect on the state that changes only flags and registers the instruction is listed for. -/
def Completes (i : Instr) (op : State → Result) (s : State) : Prop :=
  ∃ e, HasEffect i op s e ∧ WritesFlags i s.p e.p ∧ WritesRegisters i s e

theorem loadMnemonic_mem (r : Reg) : loadMnemonic r ∈ ["LDA", "LDX", "LDY"] := by cases r <;> decide

theorem stepMnemonics_subset (r : Reg) : stepMnemonics r ⊆ ["INX", "INY", "DEX", "DEY"] := by cases r <;> decide

theorem transferMnemonics_subset (r : Reg) : transferMnemonics r ⊆ ["TAX", "TAY", "TXA", "TYA"] := by
  cases r <;> decide

theorem flagMnemonics_listed (f : Flag) : ∀ g ∈ [f], flagMnemonics f ⊆ bitWriters g.bit := by
  cases f <;> decide

/-- Every meaning is refused in a state, in the way of R173, or completes there. -/
theorem Meaning.refuses_or_completes {i : Instr} {op : State → Result} (h : Meaning i op) (s : State) :
    Refuses i op s ∨ Completes i op s := by
  cases h with
  | load r base m listed =>
    have hmn := listed.listed.mnemonicOf_eq
    refine .inr ⟨_, hasEffect_loadReg s listed,
      .of_setNZ (hmn ▸ loadMnemonic_mem r) (by decide) _ _, ?_⟩
    cases r with
    | a => exact ⟨.inr (.inl (hmn ▸ by decide)), .inl rfl, .inl rfl, .inl rfl, .inl rfl⟩
    | x => exact ⟨.inl rfl, .inr (hmn ▸ by decide), .inl rfl, .inl rfl, .inl rfl⟩
    | y => exact ⟨.inl rfl, .inl rfl, .inr (hmn ▸ by decide), .inl rfl, .inl rfl⟩
  | store r base m listed =>
    exact .inr ⟨_, hasEffect_storeReg s listed, .refl i s.p, .inl rfl, .inl rfl, .inl rfl, .inl rfl, .inl rfl⟩
  | logic f base m listed hmn =>
    rw [← listed.listed.mnemonicOf_eq] at hmn
    have ha : ["AND", "ORA", "EOR"] ⊆ aWriters := by decide
    exact .inr ⟨_, hasEffect_logic s listed, .of_setNZ hmn (by decide) _ _,
      .inr (.inl (ha hmn)), .inl rfl, .inl rfl, .inl rfl, .inl rfl⟩
  | bitTest base m listed =>
    have hmn : mnemonicOf i ∈ ["BIT"] := by rw [listed.listed.mnemonicOf_eq]; decide
    exact .inr ⟨_, hasEffect_bitTest s listed,
      .of_becomes (flags := [.v, .n, .z]) hmn (bitFlags_becomes _ _ _) rfl (by decide),
      .inl rfl, .inl rfl, .inl rfl, .inl rfl, .inl rfl⟩
  | accumulate binary decimal base m listed hmn =>
    refine (refuses_or_hasEffect_accumulate s listed hmn).imp_right fun ⟨o, heffect⟩ => ?_
    rw [← listed.listed.mnemonicOf_eq] at hmn
    have ha : ["ADC", "SBC"] ⊆ aWriters := by decide
    exact ⟨_, heffect, .of_becomes (flags := [.z, .n, .v, .c]) hmn (aluFlags_becomes s.p o) rfl (by decide),
      .inr (.inl (ha hmn)), .inl rfl, .inl rfl, .inl rfl, .inl rfl⟩
  | compare r base m listed hmn =>
    rw [← listed.listed.mnemonicOf_eq] at hmn
    exact .inr ⟨_, hasEffect_compareReg s listed,
      .of_becomes (flags := [.n, .z, .c]) hmn (compareFlags_becomes _ _ _) rfl (by decide),
      .inl rfl, .inl rfl, .inl rfl, .inl rfl, .inl rfl⟩
  | modify f base m listed hmn =>
    rw [← listed.listed.mnemonicOf_eq] at hmn
    exact .inr ⟨_, hasEffect_modify s listed, .of_setNZ hmn (by decide) _ _,
      .inl rfl, .inl rfl, .inl rfl, .inl rfl, .inl rfl⟩
  | stepReg r f base listed hmn =>
    rw [← listed.mnemonicOf_eq] at hmn
    refine .inr ⟨_, hasEffect_stepReg s listed,
      .of_setNZ (stepMnemonics_subset r hmn) (by decide) _ _, ?_⟩
    cases r with
    | a => nomatch hmn
    | x =>
      have hx : ["INX", "DEX"] ⊆ xWriters := by decide
      exact ⟨.inl rfl, .inr (hx hmn), .inl rfl, .inl rfl, .inl rfl⟩
    | y =>
      have hy : ["INY", "DEY"] ⊆ yWriters := by decide
      exact ⟨.inl rfl, .inl rfl, .inr (hy hmn), .inl rfl, .inl rfl⟩
  | shiftAcc f base listed hmn hi =>
    rw [← listed.mnemonicOf_eq] at hmn
    exact .inr ⟨_, hasEffect_shiftAcc s listed,
      .of_becomes (flags := [.c, .n, .z]) hmn (shiftFlags_becomes _ _) rfl (by decide),
      .inr (.inr hi), .inl rfl, .inl rfl, .inl rfl, .inl rfl⟩
  | shiftMem f base m listed hmn =>
    rw [← listed.listed.mnemonicOf_eq] at hmn
    exact .inr ⟨_, hasEffect_shiftMem s listed,
      .of_becomes (flags := [.c, .n, .z]) hmn (shiftFlags_becomes _ _) rfl (by decide),
      .inl rfl, .inl rfl, .inl rfl, .inl rfl, .inl rfl⟩
  | branch f want base d taken listed htaken =>
    obtain ⟨mn, hlisted, htest⟩ := listed.listed
    have hmn := branch_mnemonic htest
    rw [← hlisted.mnemonicOf_eq] at hmn
    have hpc : branchMnemonics ⊆ pcWriters := by decide
    exact .inr ⟨_, hasEffect_branch s listed htaken, .refl i s.p,
      .inl rfl, .inl rfl, .inl rfl, .inl rfl, .inr (hpc hmn)⟩
  | transfer src dst base listed hmn =>
    rw [← listed.mnemonicOf_eq] at hmn
    refine .inr ⟨_, hasEffect_transfer s listed,
      .of_setNZ (transferMnemonics_subset dst hmn) (by decide) _ _, ?_⟩
    cases dst with
    | a =>
      have ha : ["TXA", "TYA"] ⊆ aWriters := by decide
      exact ⟨.inr (.inl (ha hmn)), .inl rfl, .inl rfl, .inl rfl, .inl rfl⟩
    | x =>
      have hx : ["TAX"] ⊆ xWriters := by decide
      exact ⟨.inl rfl, .inr (hx hmn), .inl rfl, .inl rfl, .inl rfl⟩
    | y =>
      have hy : ["TAY"] ⊆ yWriters := by decide
      exact ⟨.inl rfl, .inl rfl, .inr (hy hmn), .inl rfl, .inl rfl⟩
  | writeFlag f c base listed hmn =>
    rw [← listed.mnemonicOf_eq] at hmn
    exact .inr ⟨_, hasEffect_writeFlag s listed,
      .of_becomes hmn (setFlag_becomes _ _ _) rfl (flagMnemonics_listed f),
      .inl rfl, .inl rfl, .inl rfl, .inl rfl, .inl rfl⟩
  | pha =>
    exact .inr ⟨_, hasEffect_pha s, .refl _ s.p, .inl rfl, .inl rfl, .inl rfl, .inr (by decide), .inl rfl⟩
  | php =>
    exact .inr ⟨_, hasEffect_php s, .refl _ s.p, .inl rfl, .inl rfl, .inl rfl, .inr (by decide), .inl rfl⟩
  | pla =>
    exact .inr ⟨_, hasEffect_pla s, .of_setNZ (mnemonics := ["PLA"]) (by decide) (by decide) _ _,
      .inr (.inl (by decide)), .inl rfl, .inl rfl, .inr (by decide), .inl rfl⟩
  | plp =>
    exact .inr ⟨_, hasEffect_plp s, .of_all _ _ (by decide), .inl rfl, .inl rfl, .inl rfl, .inr (by decide), .inl rfl⟩
  | tsx =>
    refine .inr ⟨_, hasEffect_tsx s, ?_, .inl rfl, .inr (by decide), .inl rfl, .inl rfl, .inl rfl⟩
    cases s.params.tsxSetsNz with
    | false => exact .refl _ s.p
    | true => exact .of_setNZ (mnemonics := ["TSX"]) (by decide) (by decide) _ _
  | txs =>
    exact .inr ⟨_, hasEffect_txs s, .refl _ s.p, .inl rfl, .inl rfl, .inl rfl, .inr (by decide), .inl rfl⟩
  | jmpAbs a =>
    exact .inr ⟨_, hasEffect_jmpAbs s a, .refl _ s.p, .inl rfl, .inl rfl, .inl rfl, .inl rfl,
      .inr (by simp [pcWriters])⟩
  | jmpInd a =>
    exact .inr ⟨_, hasEffect_jmpInd s a, .refl _ s.p, .inl rfl, .inl rfl, .inl rfl, .inl rfl,
      .inr (by simp [pcWriters])⟩
  | jsr a =>
    exact .inr ⟨_, hasEffect_jsr s a, .refl _ s.p, .inl rfl, .inl rfl, .inl rfl,
      .inr (by simp [spWriters]), .inr (by simp [pcWriters])⟩
  | rts =>
    exact .inr ⟨_, hasEffect_rts s, .refl _ s.p, .inl rfl, .inl rfl, .inl rfl, .inr (by decide), .inr (by decide)⟩
  | brk =>
    exact .inr ⟨_, hasEffect_brk s,
      .of_becomes (mnemonics := ["BRK"]) (by decide) (setFlag_becomes _ _ _) rfl (by decide),
      .inl rfl, .inl rfl, .inl rfl, .inr (by decide), .inr (by decide)⟩
  | rti =>
    exact .inr ⟨_, hasEffect_rti s, .of_all _ _ (by decide), .inl rfl, .inl rfl, .inl rfl, .inr (by decide),
      .inr (by decide)⟩
  | nop =>
    exact .inr ⟨_, hasEffect_nop s, .refl _ s.p, .inl rfl, .inl rfl, .inl rfl, .inl rfl, .inl rfl⟩

end Sys2Proof.Machine
end

section
/-!
PROOFS. What every instruction keeps and reports: refusals, memory, the host's signals, the cycles (R63, R102, R109,
R173), and the writers of flags and registers (R22 to R35).
-/

namespace Sys2Proof.Machine

open Sys2Proof.Claims

/-! ### Memory -/

theorem Memory.wf_storeAll {m : Memory} (stores : List (Addr × Byte)) (hm : Memory.wf m = true) :
    Memory.wf (Memory.storeAll m stores) = true := by
  induction stores generalizing m with
  | nil => exact hm
  | cons w stores ih => exact ih (Memory.wf_set _ _ w.1.isLt hm)

/-- A byte that is stored to by none of the stores reads as before. -/
theorem Memory.get_storeAll {m : Memory} {stores : List (Addr × Byte)} {b : Addr} (hb : b ∉ stores.map Prod.fst) :
    Memory.get (Memory.storeAll m stores) b.toNat = Memory.get m b.toNat := by
  induction stores generalizing m with
  | nil => rfl
  | cons w stores ih =>
    rw [List.map_cons, List.mem_cons, not_or] at hb
    obtain ⟨hne, hrest⟩ := hb
    rw [Memory.storeAll, ih hrest, Memory.get_set, if_neg (mt BitVec.eq_of_toNat_eq hne)]

/-! ### Cycles -/

/-- The base cycles of a row leave room for its page-cross column (R85, R102). -/
theorem baseCycles_of_mem_opcodeTable : ∀ row ∈ opcodeTable,
    2 ≤ row.baseCycles ∧ row.baseCycles ≤ 7 ∧ (row.cross = .reads → row.baseCycles ≤ 6)
      ∧ (row.cross = .branch → row.baseCycles ≤ 5) := by
  have hparts : ∀ part ∈ opcodeParts, ∀ row ∈ part,
      2 ≤ row.baseCycles ∧ row.baseCycles ≤ 7 ∧ (row.cross = .reads → row.baseCycles ≤ 6)
        ∧ (row.cross = .branch → row.baseCycles ≤ 5) := by decide
  intro row hrow
  obtain ⟨part, hpart, hmem⟩ := List.mem_flatten.mp hrow
  exact hparts part hpart row hmem

/-- A row gives a count in the range of R102. -/
theorem tableCycles_inCycleRange {row : Row} (hrow : row ∈ opcodeTable) (i : Instr) (s : State) :
    InCycleRange s.params (tableCycles row i s) := by
  obtain ⟨hmin, hmax, hreads, hbranch⟩ := baseCycles_of_mem_opcodeTable row hrow
  have hcross := Bool.toNat_le (crosses row.mode (encode i).tail s)
  unfold InCycleRange
  cases h : row.cross with
  | never =>
    rw [tableCycles_never i s h]
    omega
  | reads =>
    rw [tableCycles_reads i s h, readCycles]
    have := hreads h
    omega
  | allIndexedOnly =>
    rw [tableCycles_allIndexedOnly i s h, writeCycles]
    have hextra := Bool.toNat_le
      (crosses row.mode (encode i).tail s && decide (s.params.pageCrossPolicy = .allIndexed))
    refine ⟨by omega, by omega, fun hpolicy => ?_⟩
    rw [hpolicy, decide_eq_false nofun, Bool.and_false]
    exact hmax
  | branch =>
    have := hbranch h
    cases htest : branchTest row.mnemonic with
    | none =>
      simp only [tableCycles, h, htest]
      omega
    | some test =>
      rw [tableCycles_branch i s h htest]
      split <;> omega

/-- The row of an instruction is in the opcode list, under the instruction's opcode byte. -/
theorem exists_row (i : Instr) :
    ∃ row ∈ opcodeTable, row.op = opcodeOf i ∧ ∀ s, cyclesOf i s = tableCycles row i s := by
  obtain ⟨row, hrow, -⟩ := rowOf_makes i
  obtain ⟨hmem, hop⟩ := findRow_some ((lookupRow_eq _).symm.trans hrow)
  exact ⟨row, hmem, hop, fun s => by rw [cyclesOf, hrow, Option.elim_some]⟩

/-! ### The next state of an instruction -/

/-- An instruction that has a next state completes, and that state is its effect's. -/
theorem exec_next {i : Instr} {s t : State} (h : exec i s = .next t) :
    ∃ e, t = e.apply (cyclesOf i s) s ∧ e.stores.map Prod.fst = storedAddrs s i ∧ WritesFlags i s.p e.p
      ∧ WritesRegisters i s e := by
  obtain ⟨-, -, -, hrefused⟩ | ⟨e, ⟨hstored, heffect⟩, hflags, hregisters⟩ := (exec_meaning i).refuses_or_completes s
  · nomatch h.symm.trans (hrefused s.setting)
  · exact ⟨e, Host.Outcome.next.inj (h.symm.trans (heffect s.setting)), hstored, hflags, hregisters⟩

end Sys2Proof.Machine

namespace Sys2Proof.Claims

open Sys2Proof.Machine

/-- Settles O29: the forms run `accumulate`, and a refused meaning is one of theirs. -/
theorem decimalRefusalIsTheOnlyStop : Obligations.DecimalRefusalIsTheOnlyStop := by
  refine ⟨fun s v z a hd hmode f hf => ?_, fun i s => ?_⟩
  · have hstop : s.flag .d = true ∧ s.params.decimalMode = .refuse := ⟨hd, hmode⟩
    obtain hf | hf := List.mem_append.mp hf
    · rw [(adcForms_run v z a f hf).2, accumulate_eq, if_pos hstop]
    · rw [(sbcForms_run v z a f hf).2, accumulate_eq, if_pos hstop]
  · obtain ⟨hmn, hd, hmode, hrefused⟩ | ⟨e, ⟨-, heffect⟩, -⟩ := (exec_meaning i).refuses_or_completes s
    · exact .inr ⟨hrefused s.setting, hmn, hd, hmode⟩
    · exact .inl ⟨_, heffect s.setting⟩

/-- Settles O52: the effect of an instruction changes P only in bits it is a listed writer of. -/
theorem flagWriters : Obligations.FlagWriters := by
  intro i s t h
  obtain ⟨e, rfl, -, hflags, -⟩ := exec_next h
  exact ⟨hflags 0, hflags 1, hflags 2, hflags 3, fun h => h.elim (hflags 4) (hflags 5), hflags 6, hflags 7⟩

/-- Settles O53: the effect of an instruction changes only registers it is a listed writer of. -/
theorem registerWriters : Obligations.RegisterWriters := by
  intro i s t h
  obtain ⟨e, rfl, -, -, hregisters⟩ := exec_next h
  exact ⟨hregisters.a.resolve_left, hregisters.x.resolve_left, hregisters.y.resolve_left, hregisters.sp.resolve_left,
    hregisters.pc.resolve_left⟩

/-- Settles O54: the stores of an effect are to the addresses of its instruction. -/
theorem onlyStoredBytesChange : Obligations.OnlyStoredBytesChange := by
  intro i s t h b hb
  obtain ⟨e, rfl, hstored, -⟩ := exec_next h
  exact Memory.get_storeAll (hstored ▸ hb)

/-- Settles O55: an effect is reported with the cycles of the row. -/
theorem cyclesMatchOpcodeTable : Obligations.CyclesMatchOpcodeTable := by
  intro i s t h
  obtain ⟨row, hmem, hop, hcycles⟩ := exists_row i
  obtain ⟨e, rfl, -⟩ := exec_next h
  exact ⟨row, hmem, hop, congrArg Report.executed (hcycles s)⟩

end Sys2Proof.Claims
end

section
/-!
PROOFS. What every tick keeps and reports (R37 to R39, R101, R102), and that it depends neither on the interrupt
requests nor on the timing (R106, R107, R275).
-/

namespace Sys2Proof.Machine

open Sys2Proof.Claims

/-! ### The state an instruction runs in -/

/-- What a tick has done to the state before the meaning runs: PC and the two outputs, and no reset left pending. -/
def Prepared (s u : State) : Prop :=
  u = { s with pc := u.pc, pendingReset := false, report := u.report, bus := u.bus }

theorem prepared_fetchMany (s : State) (n : Nat) : Prepared s (s.beginTick.resetStep.fetchMany n) := by
  rw [Prepared, State.fetchMany_eq, State.resetStep_eq]
  rfl

/-- What is fetched leaves the state past some number of bytes (R63, R270). -/
theorem State.fetchInstr_cases (s : State) :
    (∃ i n, s.fetchInstr = .instr i (s.fetchMany n)) ∨ s.fetchInstr = .illegal (s.byteAt s.pc) (s.fetchMany 1) := by
  unfold State.fetchInstr
  split
  · exact .inl ⟨_, _, rfl⟩
  · exact .inr rfl

/-- How a tick ends, by the state before the meaning runs (R101). -/
theorem step_ends (s : State) :
    (s.ready = false ∧ step s = .next s.beginTick.resetStep.hold)
      ∨ (∃ op u, Prepared s u ∧ step s = .fault (.illegalOpcode op u))
      ∨ ∃ i u, s.ready = true ∧ Prepared s u ∧ step s = exec i u := by
  obtain ⟨hready, hnext⟩ | ⟨op, u, -, hfetch, hfault⟩ | ⟨i, u, hready, hfetch, hexec⟩ := step_cases s
  · rw [State.resetStep_ready] at hready
    exact .inl ⟨hready, hnext⟩
  · obtain ⟨i, n, hinstr⟩ | hillegal := s.beginTick.resetStep.fetchInstr_cases
    · nomatch hfetch.symm.trans hinstr
    · obtain ⟨-, rfl⟩ := Fetched.illegal.inj (hfetch.symm.trans hillegal)
      exact .inr (.inl ⟨op, _, prepared_fetchMany s 1, hfault⟩)
  · rw [State.resetStep_ready] at hready
    obtain ⟨j, n, hinstr⟩ | hillegal := s.beginTick.resetStep.fetchInstr_cases
    · obtain ⟨-, rfl⟩ := Fetched.instr.inj (hfetch.symm.trans hinstr)
      exact .inr (.inr ⟨i, _, hready, prepared_fetchMany s n, hexec⟩)
    · nomatch hfetch.symm.trans hillegal

/-- The next state of a tick: held, or an instruction's effect on a prepared state. -/
theorem step_next {s t : State} (h : step s = .next t) :
    (s.ready = false ∧ t = s.beginTick.resetStep.hold)
      ∨ ∃ (i : Instr) (u : State) (e : Effect), s.ready = true ∧ Prepared s u ∧ t = e.apply (cyclesOf i u) u := by
  obtain ⟨hready, hnext⟩ | ⟨op, u, -, hfault⟩ | ⟨i, u, hready, hu, hexec⟩ := step_ends s
  · exact .inl ⟨hready, Host.Outcome.next.inj (h.symm.trans hnext)⟩
  · nomatch h.symm.trans hfault
  · obtain ⟨e, ht, -⟩ := exec_next (hexec.symm.trans h)
    exact .inr ⟨i, u, e, hready, hu, ht⟩

/-! ### Changes of the setting -/

/-- A function of the setting, on states. -/
def State.mapSetting (g : Setting → Setting) (s : State) : State := s.withSetting (g s.setting)

section

variable (g : Setting → Setting) (s : State)

theorem State.resetStep_mapSetting :
    (s.mapSetting g).beginTick.resetStep = s.beginTick.resetStep.mapSetting g := by
  rw [State.resetStep_eq, State.resetStep_eq]
  rfl

theorem State.fetchMany_mapSetting (n : Nat) : (s.mapSetting g).fetchMany n = (s.fetchMany n).mapSetting g := by
  rw [State.fetchMany_eq, State.fetchMany_eq]
  rfl

/-- A tick from another setting, under an observation `F` of its outcome that the meanings answer by `G`. -/
theorem step_mapSetting {F G : State → State} (hstate : ∀ u, F (u.mapSetting g) = G u)
    (hexec : ∀ i u, mapResult F (exec i (u.mapSetting g)) = mapResult G (exec i u)) :
    mapResult F (step (s.mapSetting g)) = mapResult G (step s) := by
  have hready : (s.beginTick.resetStep.mapSetting g).ready = s.beginTick.resetStep.ready := rfl
  have hwindow : (s.beginTick.resetStep.mapSetting g).window = s.beginTick.resetStep.window := rfl
  simp only [step, State.resetStep_mapSetting, hready]
  split
  · simp only [State.fetchInstr, hwindow, State.fetchMany_mapSetting]
    cases decode s.beginTick.resetStep.window with
    | ok decoded => exact hexec _ _
    | error _ => exact congrArg (fun u => Host.Outcome.fault (Fault.illegalOpcode _ u)) (hstate _)
  · exact congrArg Host.Outcome.next (hstate s.beginTick.resetStep.hold)

end

/-- A meaning answers alike from another setting, where the observations agree on every effect. -/
theorem exec_mapSetting {g : Setting → Setting} {F G : State → State}
    (hstate : ∀ i e u, F (Effect.apply e (cyclesOf i (u.mapSetting g)) (u.mapSetting g)) = G (e.apply (cyclesOf i u) u))
    (i : Instr) (u : State) : mapResult F (exec i (u.mapSetting g)) = mapResult G (exec i u) := by
  obtain ⟨-, -, -, hrefused⟩ | ⟨e, ⟨-, heffect⟩, -⟩ := (exec_meaning i).refuses_or_completes u
  · rw [State.mapSetting, hrefused, ← u.withSetting_setting, hrefused]
    rfl
  · have hu := heffect u.setting
    rw [State.withSetting_setting] at hu
    rw [State.mapSetting, heffect, hu]
    exact congrArg Host.Outcome.next (hstate i e u)

theorem mapResult_id (r : Result) : mapResult id r = r := by
  match r with
  | .next _ => rfl
  | .fault (.illegalOpcode _ _) => rfl
  | .refused _ => rfl

/-- A tick does not depend on the outputs of the last one (R102). -/
theorem step_of_beginTick_eq {s t : State} (h : s.beginTick = t.beginTick) : step s = step t := by
  rw [step, step, h]

end Sys2Proof.Machine

namespace Sys2Proof.Claims

open Sys2Proof.Machine

/-- Settles O13: a tick before the meaning writes no memory, and an effect stores bytes one after another. -/
theorem stepKeepsInvariant : Obligations.StepKeepsInvariant := by
  intro s hinv
  have hprepared {u : State} (hu : Prepared s u) : u.Inv := by
    rw [hu]
    exact hinv
  refine ⟨fun t h => ?_, fun op u h => ?_⟩
  · obtain ⟨-, rfl⟩ | ⟨i, u, e, -, hu, rfl⟩ := step_next h
    · rw [State.resetStep_eq]
      exact hinv
    · exact Memory.wf_storeAll e.stores (hprepared hu)
  · obtain ⟨-, hnext⟩ | ⟨op', u', hu, hfault⟩ | ⟨i, u', -, -, hexec⟩ := step_ends s
    · nomatch h.symm.trans hnext
    · cases h.symm.trans hfault
      exact hprepared hu
    · exact absurd (hexec.symm.trans h) (exec_ne_fault i u' _)

/-- Settles O16: an effect is reported with a row's cycles. -/
theorem reportedCyclesInRange : Obligations.ReportedCyclesInRange := by
  intro s t h
  obtain ⟨hready, rfl⟩ | ⟨i, u, e, hready, hu, rfl⟩ := step_next h
  · exact .inl ⟨hready, rfl⟩
  · obtain ⟨row, hmem, -, hcycles⟩ := exists_row i
    have hrange := tableCycles_inCycleRange hmem i u
    rw [← hcycles, show u.params = s.params by rw [hu]] at hrange
    exact .inr ⟨hready, _, rfl, hrange⟩

/-- Settles O17: neither a held tick nor a prepared state nor an effect touches the signals. -/
theorem stepLeavesHostSignals : Obligations.StepLeavesHostSignals := by
  intro s t h
  obtain ⟨-, rfl⟩ | ⟨i, u, e, -, hu, rfl⟩ := step_next h
  · rw [State.resetStep_eq]
    exact ⟨rfl, rfl, rfl, rfl, rfl⟩
  · rw [hu]
    exact ⟨rfl, rfl, rfl, rfl, rfl⟩

/-- Settles O18: the requests are part of the setting, and no row's cycles depend on them. -/
theorem interruptSignalsAreInert : Obligations.InterruptSignalsAreInert := by
  intro s nmi irq
  have hexec := exec_mapSetting (g := fun x => { x with pendingNmi := nmi, pendingIrq := irq }) (F := id)
    (G := withSignals nmi irq) fun _ _ _ => rfl
  have hstep := step_mapSetting _ s (fun _ => rfl) hexec
  rwa [mapResult_id] at hstep

/-- Settles O19: such states differ, at the start of a tick, in the policy alone, which decides only the report. -/
theorem timingDoesNotAffectState : Obligations.TimingDoesNotAffectState := by
  intro s t h
  have hstart : t.beginTick = (s.mapSetting fun x => { x with policy := t.params.pageCrossPolicy }).beginTick :=
    congrArg (fun u => (u.mapSetting fun x => { x with policy := t.params.pageCrossPolicy }).beginTick) h.symm
  have hexec := exec_mapSetting (g := fun x => { x with policy := t.params.pageCrossPolicy }) (F := forgetTiming)
    (G := forgetTiming) fun _ _ _ => rfl
  rw [step_of_beginTick_eq hstart]
  exact (step_mapSetting _ s (fun _ => rfl) hexec).symm

end Sys2Proof.Claims
end
